-- ==== Sys2Proof/Word.lean ====
section
/-! DEFINITION. The words of the part: the bytes that cross its lines, and the one-byte sets of
punch lines and of pass contexts (R180). Numbers the spec counts with (frames, ticks, clocks) are `Nat`
or `Int`; only what the spec treats as bits is a bit vector. -/

namespace Sys2Proof

/-- One byte of a message or of an overlay descriptor. -/
abbrev Byte := BitVec 8

/-- A set of punch lines 0 to 7: bit n stands for line n, bit 0 the least significant (R180). -/
abbrev LineSet := BitVec 8

/-- A set of pass contexts 0 to 3, carried in one byte in the same way (R180). -/
abbrev CtxSet := BitVec 8

/-- The four pass contexts in index order (R83). -/
abbrev allCtx : List (Fin 4) := [0, 1, 2, 3]

/-- The eight reels in number order (R1). -/
abbrev allReels : List (Fin 8) := [0, 1, 2, 3, 4, 5, 6, 7]

/-- The eight punch lines in number order (R129). -/
abbrev allLines : List (Fin 8) := [0, 1, 2, 3, 4, 5, 6, 7]

end Sys2Proof
end

