-- ==== Sys2Proof/Config.lean ====
section
/-! DEFINITION. What is fixed for the part: the four rates of Table 0-3 with their constants, the
sizes the spec fixes, and the one free value of the model (log entry 3). -/

namespace Sys2Proof

/-- The configured rate: one of the four of Table 0-3 (R64). -/
inductive Rate where
  | fps24
  | fps25
  | fps30
  | drop30
  deriving DecidableEq, Repr

/-- Frames per second of a rate (Table 0-3). -/
def Rate.fps : Rate → Nat
  | .fps24 => 24
  | .fps25 => 25
  | .fps30 => 30
  | .drop30 => 30

/-- F_day, the frames in a day at a rate (Table 0-3). -/
def Rate.fDay : Rate → Nat
  | .fps24 => 2073600
  | .fps25 => 2160000
  | .fps30 => 2592000
  | .drop30 => 2589408

/-- The nominal frame period in 12.288 MHz clocks (Table 0-3). -/
def Rate.nominal : Rate → Nat
  | .fps24 => 512000
  | .fps25 => 491520
  | .fps30 => 409600
  | .drop30 => 409600

/-- Whether a rate's code carries the drop-frame flag set (R63). -/
def Rate.isDrop : Rate → Bool
  | .drop30 => true
  | .fps24 | .fps25 | .fps30 => false

/-- Ticks in a frame: a tick is one eightieth of a frame (Section 5.2 of the introduction). -/
def Config.ticksPerFrame : Nat := 80

/-- Cue slots of a reel (R1). -/
def Config.slotsPerReel : Nat := 160

/-- Take records a cue holds at most (R148). -/
def Config.takesPerCue : Nat := 6

/-- Notices the queue holds at most (R173). -/
def Config.noticeRoom : Nat := 24

/-- Answers of the link's own that may wait at most (R171). -/
def Config.linkAnswerRoom : Nat := 3

/-- Order-list entries of the look-ahead slice (R90). -/
def Config.sliceLength : Nat := 8

/-- FREE VALUE (log entry 3). R175: while the transmitter is idle, an answer being filled and a
notice joining the queue may reach it together, and either may be taken first. `answerFirst n` says,
for the n-th time one event does both, whether the answer goes first. It has no body: no statement
can rest on a value of it. -/
opaque Config.answerFirst : Nat → Bool

end Sys2Proof
end

