-- ==== Sys2Proof/Syntax.lean ====
section
/-! DEFINITION. The commands of the part: one constructor of `Instr` for each row of
spec/opcode_table.json, with the operands the rules give it. A command of the controller carries its fields
as the raw bytes of Table 10-3, so that a value no rule defines can be sent and is refused by its owner
(R180, R182). An event between blocks carries the record the rules say it carries. -/

namespace Sys2Proof

/-- Direction of picture (R61). -/
inductive Dir where
  | forward
  | reverse
  deriving DecidableEq, Repr

/-- Position states (Table 4-4). -/
inductive PosState where
  | unknown
  | locked
  | freewheel
  | stopped
  deriving DecidableEq, Repr

/-- Phases of a pass (R96). -/
inductive Phase where
  | lead
  | line
  | tail
  deriving DecidableEq, Repr

/-- A punch goes in or out (R132, R139). -/
inductive Action where
  | punchOut
  | punchIn
  deriving DecidableEq, Repr

/-- A timecode field: hours, minutes, seconds and frames, one byte each (R181). -/
structure Label where
  hh : Byte
  mm : Byte
  ss : Byte
  ff : Byte
  deriving DecidableEq, Repr

/-- The cue body of CUE_WRITE after the loop number, as given and before clamping (Table 10-5). -/
structure CueFields where
  inPt : Label
  outPt : Label
  char : Byte
  beeps : Byte
  spacing : Byte
  onTime : BitVec 16
  tone : Byte
  streamer : Byte
  colour : Byte
  tail : BitVec 16
  lines : LineSet
  mode : Byte
  deriving DecidableEq, Repr

/-- The named fields of CUE_AMEND, in the order of their mask bits 0 to 11 (Table 10-5). A field that
is present is one whose mask bit is set. -/
structure AmendFields where
  inPt : Option Label
  outPt : Option Label
  char : Option Byte
  beeps : Option Byte
  spacing : Option Byte
  onTime : Option (BitVec 16)
  tone : Option Byte
  streamer : Option Byte
  colour : Option Byte
  tail : Option (BitVec 16)
  lines : Option LineSet
  mode : Option Byte
  deriving DecidableEq, Repr

/-- A completed LTC frame as the Position Reader reads it (R61, R187): the 80 cells in the order in
which they were read (bit i is the i-th cell), the orientation in which the sync word was read, the
count of clocks over the frame's cells (the code duration D), and the count of clocks since the
completion of the frame before it (R68). -/
structure LtcFrame where
  cells : BitVec 80
  dir : Dir
  duration : Nat
  gap : Nat
  deriving DecidableEq, Repr

/-- What a frame edge carries (R77). -/
structure FrameEdge where
  n : Nat
  dir : Dir
  speed : Nat
  inSpeed : Bool
  jump : Bool
  resume : Bool
  state : PosState
  deriving DecidableEq, Repr

/-- A stage request of the Pass Scheduler (R97, R99, R132). For `punchOut` the lines are absent in the
spec; the model carries the empty set. -/
structure StageRequest where
  ctx : Fin 4
  loop : Nat
  action : Action
  lines : LineSet
  target : Nat
  deriving DecidableEq, Repr

/-- A punch report of the Punch Unit: the lines granted for `punchIn`, released for `punchOut`
(R136, R137). -/
structure PunchReport where
  ctx : Fin 4
  loop : Nat
  action : Action
  lines : LineSet
  deriving DecidableEq, Repr

/-- A lane report of the Pass Scheduler (R118). -/
structure LaneReport where
  n : Nat
  state : PosState
  lanes : List (Fin 4 × Phase)
  deriving DecidableEq, Repr

/-- A form byte of REEL_SELECT that is no defined form, 03H to FFH, held as what it exceeds 03H by (R182). -/
abbrev UndefinedForm := Fin 253

/-- A falling edge on GUARD as GUARD_TRIP brings it (R143, log entry 19): the line falls and the Punch Unit has not yet
taken the edge, or the Punch Unit takes it. -/
inductive GuardFall where
  | line
  | taken
  deriving DecidableEq, Repr

/-- The commands and events of the part, one constructor for each row of spec/opcode_table.json. -/
inductive Instr where
  -- resets
  | coldReset
  /-- `byLine` says that a low level on RESET started it; otherwise the end of the RESTART answer did. -/
  | warmReset (byLine : Bool)
  -- commands of the controller
  | status
  | restart
  | setRate (code : Byte)
  | setFreewheel (limit : Byte)
  | positionRead
  | setVoice (qualify allowance : Byte)
  | setFlash (length : Byte)
  | setLines (manual activeLow : LineSet)
  | punchManual (lines : LineSet) (action : Byte)
  | guardRelease
  | passAbort (context : Byte)
  /-- The play form; with `form`, a three-byte REEL_SELECT whose form byte is no defined form (R182, log entry 4). -/
  | reelSelectPlay (reel : Byte) (form : Option UndefinedForm := none)
  | reelSelectEdit (reel : Byte)
  /-- The tag form; with `form`, a five-byte REEL_SELECT whose form byte is no defined form (R182, log entry 4). -/
  | reelSelectTag (reel : Byte) (tag : BitVec 16) (form : Option UndefinedForm := none)
  | reelInfo (reel : Byte)
  | reelClear
  | reelShift (delta : BitVec 32)
  | reelCopy (source dest : Byte) (delta : BitVec 32)
  | reelResume
  | cueWrite (loop : BitVec 16) (fields : CueFields)
  /-- `reserved` is bits 12 to 15 of the field mask (Table 10-5). -/
  | cueAmend (loop : BitVec 16) (reserved : BitVec 4) (fields : AmendFields)
  | cueRetire (loop : BitVec 16)
  | cueRead (loop : BitVec 16)
  | cueNext (label : Label)
  | cueArm (loop : BitVec 16) (kind : Byte)
  | cueDisarm (loop : BitVec 16)
  | cueProtect (loop : BitVec 16) (value : Byte)
  | takeCircle (loop : BitVec 16) (take value : Byte)
  | takeRetire (loop : BitVec 16) (take : Byte)
  -- the link
  | rxByte (byte : Byte) (framingError : Bool)
  | gapTimerExpiry
  | txMessageEnd
  -- the Position Reader
  | ltcFrame (frame : LtcFrame)
  | watchTimerExpiry
  | freewheelTimerExpiry
  | posTick
  -- the Pass Scheduler
  | pscFrameEdge (edge : FrameEdge)
  | pscStateEvent (state : PosState) (dir : Dir)
  | punchReport (report : PunchReport)
  | guardReport
  -- the Punch Unit
  | pchFrameEdge (edge : FrameEdge)
  | stageRequest (request : StageRequest)
  | release (ctx : Fin 4) (loop : Nat)
  | pchStateEvent (state : PosState) (dir : Dir)
  | guardTrip (fall : GuardFall := .taken)
  | guardRise
  -- the Count-In Unit
  | ciuTick (tick : Nat) (dir : Dir)
  | entryHandover (ctx : Fin 4) (start : Nat)
  | freeHandover (ctx : Fin 4)
  -- the Overlay Composer
  | laneReport (report : LaneReport)
  | ovlStateEvent (state : PosState) (dir : Dir)
  | descriptorSent
  -- the Voice Gate
  | voiceEdge (rising : Bool)
  | vgtTick (tick : Nat) (dir : Dir)
  | vgtStateEvent (state : PosState) (dir : Dir)
  | onsetReport (onset qualifying allowance : Nat)
  -- background work, the tone generator and the end of a held reset
  | shiftStep
  | copyStep
  | toneHalfWave
  | resetRelease
  deriving DecidableEq, Repr

end Sys2Proof
end

