-- ==== Sys2Proof/Decode.lean ====
section
/-! DEFINITION. The decoder of the table's bits. No row of spec/opcode_table.json gives bits: a command of the
controller is a framed message of bytes (Chapter 10, read by `Sys2Proof.Machine.commandOf`), and an event has no
bits at all. So no word spells a command of the table (log entry 21). -/

namespace Sys2Proof

/-- The command a word of the table's bits spells: none, since the table gives no row bits. -/
def decodeTableWord (_nbits _w : Nat) : Option Instr := none

end Sys2Proof
end

