-- ==== Sys2Proof/Machine/State.lean ====
section
/-! DEFINITION. The state of the part as plain data: every block of Table 0-1 with the state the spec
gives it, the levels of the input lines, the events that blocks have raised and their takers have not yet
taken, and the queue of waiting commands. `State.reset` is the part right after power-on. -/

namespace Sys2Proof.Machine

/-! ## Cue Store (Chapter 1, Chapter 8) -/

/-- Mode of a cue (R14). -/
inductive Mode where
  | once
  | cycle
  deriving DecidableEq, Repr

/-- Arm kind of a cue, and kind of a pass (R16). -/
inductive ArmKind where
  | rehearse
  | record
  deriving DecidableEq, Repr

/-- Cue states (R15). The arm kind is present exactly while the cue is ARMED or PASSING (R16), so the
constructors for those two states hold it. -/
inductive CueState where
  | ready
  | armed (kind : ArmKind)
  | passing (kind : ArmKind)
  | done
  deriving DecidableEq, Repr

/-- Results of a take (R152). -/
inductive TakeResult where
  | opened
  | complete
  | partialLines
  | guarded
  | aborted
  deriving DecidableEq, Repr

/-- A take record (Table 8-1). -/
structure Take where
  number : Nat
  result : TakeResult
  lines : LineSet
  late : Bool
  guardTripped : Bool
  /-- Voice offset in signed ticks, or absent. -/
  offset : Option Int
  circled : Bool
  deriving DecidableEq, Repr

/-- The in-use values of a cue: the fields CUE_AMEND may change (Table 1-6, Section 2.3.1). -/
structure CueVals where
  inPt : Nat
  outPt : Nat
  char : Byte
  beeps : Nat
  spacing : Nat
  onTime : Nat
  tone : Nat
  streamer : Nat
  colour : Nat
  tail : Nat
  lines : LineSet
  mode : Mode
  deriving DecidableEq, Repr

/-- A set of amended fields, each with its new value (R19). -/
structure EditVals where
  inPt : Option Nat
  outPt : Option Nat
  char : Option Byte
  beeps : Option Nat
  spacing : Option Nat
  onTime : Option Nat
  tone : Option Nat
  streamer : Option Nat
  colour : Option Nat
  tail : Option Nat
  lines : Option LineSet
  mode : Option Mode
  deriving DecidableEq, Repr

/-- The pending edit of a PASSING cue (R19). -/
structure PendingEdit where
  fields : EditVals
  disarm : Bool
  deriving DecidableEq, Repr

/-- A cue record (Table 1-6). -/
structure Cue where
  loop : Nat
  vals : CueVals
  state : CueState
  protect : Bool
  waited : Bool
  conformPending : Bool
  nextTake : Nat
  /-- Take records, oldest first (R148). -/
  takes : List Take
  pending : Option PendingEdit
  deriving DecidableEq, Repr

/-- Reel states (Table 1-2). -/
inductive ReelState where
  | empty
  | opened
  | conforming
  | locked
  | partly
  deriving DecidableEq, Repr

/-- A conform operation; the source reel is present for COPY only (Table 3-1). -/
inductive ConformOp where
  | shift
  | copy (source : Fin 8)
  deriving DecidableEq, Repr

/-- The conform record of a reel header (Section 1.1.2). -/
structure ConformRecord where
  op : ConformOp
  delta : Int
  cursor : Nat
  deriving DecidableEq, Repr

/-- A reel: header, live cue slots and order list (Table 1-1, R1, R9). The live slots stand as pairs of
slot number and record, slots strictly rising; a slot not listed is free. The cue count is their number. -/
structure Reel where
  tag : BitVec 16
  state : ReelState
  cues : List (Nat × Cue)
  order : List Nat
  earliest : Option Nat
  latest : Option Nat
  conform : Option ConformRecord
  deriving DecidableEq, Repr

/-- The Cue Store: eight reels and the selectors (Section 1.2). -/
structure CueStore where
  reels : Vector Reel 8
  playReel : Fin 8
  editReel : Fin 8
  pendingPlay : Option (Fin 8)
  deriving DecidableEq, Repr

/-! ## Conform Unit (Chapter 3) -/

/-- The operation in hand (Table 3-1). -/
structure Operation where
  op : ConformOp
  target : Fin 8
  delta : Int
  cursor : Nat
  deriving DecidableEq, Repr

/-! ## Position Reader (Chapter 4) -/

/-- The Position Reader (R63, R68 to R70, R80). The speed, IN_SPEED and the two timers follow from these
fields (R68, R69, R73, R74). -/
structure Pos where
  rate : Rate
  limit : Nat
  state : PosState
  n : Nat
  b : Nat
  dir : Dir
  period : Option Nat
  mark : Bool
  count : Nat
  mismatch : Bool
  deriving DecidableEq, Repr

/-! ## Pass Scheduler (Chapter 5) -/

/-- An ACTIVE pass context (Table 5-2). `released` holds the lines that the punch-out report has taken
from the held set before the take is closed: they count as held at the out-point edge (R100). -/
structure Ctx where
  reel : Fin 8
  slot : Nat
  loop : Nat
  kind : ArmKind
  phase : Phase
  entry : Nat
  close : Nat
  late : Bool
  granted : LineSet
  held : LineSet
  released : LineSet
  /-- The number of the take of the cue that the pass reserved. -/
  take : Option Nat
  deriving DecidableEq, Repr

/-- The Pass Scheduler (R83, R86). A context that is `none` is FREE. -/
structure Psc where
  ctxs : Vector (Option Ctx) 4
  pointer : Option Nat
  refind : Bool
  deriving DecidableEq, Repr

/-! ## Count-In Unit (Chapter 6) -/

/-- The count-in values of the cue a context serves, as the Count-In Unit reads them through the context
at the entry hand-over; they do not change during the pass (R84, R110; log entry 8). -/
structure CountIn where
  inPt : Nat
  beeps : Nat
  spacing : Nat
  onTime : Nat
  tone : Nat
  deriving DecidableEq, Repr

/-- The beat state of a context (R110). It is in use exactly when the start frame is present. -/
structure Beat where
  start : Option Nat
  cue : Option CountIn
  current : Option Nat
  gate : Bool
  deriving DecidableEq, Repr

/-- The tone generator (R114). A count that is absent is stopped. -/
structure ToneGen where
  level : Bool
  sounding : Option (Fin 4)
  divider : Nat
  count : Option Nat
  deriving DecidableEq, Repr

/-- The Count-In Unit (R110, R114). -/
structure Ciu where
  beats : Vector Beat 4
  last : Option (Nat × Dir)
  tone : ToneGen
  deriving DecidableEq, Repr

/-! ## Overlay Composer (Chapter 6) -/

/-- A lane of an overlay descriptor (R120). -/
structure Lane where
  ctx : Fin 4
  char : Byte
  colour : Nat
  phase : Phase
  column : Option Nat
  digit : Option Nat
  flash : Bool
  bar : Bool
  deriving DecidableEq, Repr

/-- An overlay descriptor (R120). -/
structure Descriptor where
  frame : Nat
  state : PosState
  lanes : List Lane
  deriving DecidableEq, Repr

/-- The Overlay Composer and its port (R126, R127). -/
structure Ovl where
  flash : Nat
  quiet : Bool
  wire : Option Descriptor
  waiting : Option Descriptor
  deriving DecidableEq, Repr

/-! ## Punch Unit (Chapter 7) -/

/-- Mode of a punch line (Table 7-1). -/
inductive LineMode where
  | cue
  | manual
  deriving DecidableEq, Repr

/-- Owner of a punch line (Table 7-1). -/
inductive Owner where
  | nobody
  | context (k : Fin 4)
  | manual
  deriving DecidableEq, Repr

/-- A line record (Table 7-1). -/
structure Line where
  mode : LineMode
  activeLow : Bool
  owner : Owner
  isIn : Bool
  deriving DecidableEq, Repr

/-- A staged context entry (R132). -/
structure Staged where
  loop : Nat
  action : Action
  lines : LineSet
  target : Nat
  deriving DecidableEq, Repr

/-- A staged manual entry (R132). -/
structure ManualEntry where
  lines : LineSet
  action : Action
  deriving DecidableEq, Repr

/-- Unit states of the Punch Unit (R142). -/
inductive UnitState where
  | normal
  | guarded
  deriving DecidableEq, Repr

/-- The Punch Unit (R129, R132, R134, R141, R142). -/
structure Pch where
  lines : Vector Line 8
  staged : Vector (Option Staged) 4
  manual : Option ManualEntry
  lastEdge : Option Nat
  view : PosState
  unit : UnitState
  deriving DecidableEq, Repr

/-! ## Voice Gate (Chapter 8) -/

/-- Run states (Table 8-2). -/
inductive RunState where
  | idle
  | counting
  | qualified
  deriving DecidableEq, Repr

/-- The Voice Gate (Table 8-2). -/
structure Vgt where
  qualify : Nat
  allowance : Nat
  level : Bool
  last : Option (Nat × Dir)
  run : RunState
  start : Option Nat
  count : Nat
  deriving DecidableEq, Repr

/-! ## Command Link (Chapter 9) -/

/-- Results of an answer (R172, Table 10-2). -/
inductive Result where
  | done | adjusted | pending
  | linkError | overrun | unknownKind | badLength
  | badField | badTimecode | noSuchCue | duplicateLoop | reelFull | reelBusy | reelPartial
  | reelNotEmpty | outOfDay | conformBusy | noSuchTake | protectedCue | passActive | takesFull
  | takeLimit | noLines | lineBusy | notManual | guarded | guardActive
  deriving DecidableEq, Repr

/-- What REEL_INFO answers (R22). -/
structure ReelInfo where
  reel : Fin 8
  tag : BitVec 16
  state : ReelState
  count : Nat
  earliest : Option Label
  latest : Option Label
  conform : Option ConformRecord
  isPlay : Bool
  isEdit : Bool
  isPending : Bool
  deriving DecidableEq, Repr

/-- What STATUS answers (R176). -/
structure StatusInfo where
  position : PosState
  punchUnit : UnitState
  guardHigh : Bool
  operation : Option Operation
  contexts : CtxSet
  overrun : Bool
  deriving DecidableEq, Repr

/-- What POSITION_READ answers (R81). -/
structure PositionInfo where
  state : PosState
  dir : Dir
  speed : Nat
  inSpeed : Bool
  label : Label
  tick : Nat
  deriving DecidableEq, Repr

/-- The data an answer carries beyond its result (R172). A cue answer carries the record as it stood, with
the rate whose labels it is sent in (R20). -/
inductive AnswerData where
  | nothing
  | status (info : StatusInfo)
  | position (info : PositionInfo)
  | aborted (contexts : CtxSet)
  | reel (info : ReelInfo)
  | cue (rate : Rate) (record : Cue)
  deriving DecidableEq, Repr

/-- An owner's answer to a command: the command's kind, the result and the data (R172, R183). -/
structure Answer where
  kind : Byte
  result : Result
  data : AnswerData
  deriving DecidableEq, Repr

/-- An answer made by the link itself: its result, and the kind as received or the null kind (R168). -/
structure LinkAnswer where
  result : Result
  kind : Byte
  deriving DecidableEq, Repr

/-- Causes of an abort (R102). -/
inductive AbortCause where
  | reverse | offSpeed | jump | stopped | commanded | retired
  deriving DecidableEq, Repr

/-- Outcome of a pass (R102). -/
inductive PassOutcome where
  | completed
  | aborted (cause : AbortCause)
  deriving DecidableEq, Repr

/-- Causes of MISSED (R89). -/
inductive MissedCause where
  | lateStart | noContext | notEntered
  deriving DecidableEq, Repr

/-- Sources a PUNCH notice names (R136, R140). -/
inductive PunchSource where
  | context (k : Fin 4)
  | manual
  deriving DecidableEq, Repr

/-- Notices (Table 9-2). -/
inductive Notice where
  | passBegin (ctx : Fin 4) (reel : Fin 8) (loop : Nat) (char : Byte) (kind : ArmKind) (late : Bool)
  | passEnd (ctx : Fin 4) (reel : Fin 8) (loop : Nat) (outcome : PassOutcome) (phase : Phase) (take : Option Take)
  | missed (loop : Nat) (cause : MissedCause)
  | takesFull (loop : Nat)
  | punch (source : PunchSource) (goneIn goneOut refused : LineSet)
  | guardTripped (lines : LineSet)
  | position (state : PosState) (dir : Dir)
  | rateMismatch (flag : Bool)
  | conformDone (reel : Fin 8) (op : ConformOp)
  | reelSwitched (reel : Fin 8)
  deriving DecidableEq, Repr

/-- Receive states, with the message in progress (R165). -/
inductive Rx where
  | hunting
  | length
  | body (len : Byte) (got : List Byte)
  | check (len : Byte) (got : List Byte)
  deriving DecidableEq, Repr

/-- The held command: its body as received, and whether its owner has taken it (R169, R178). -/
structure Held where
  body : List Byte
  taken : Bool
  deriving DecidableEq, Repr

/-- A place of the answer list: the held command's, empty until its owner fills it, or an answer of the
link's own (R171). -/
inductive Place where
  | owner (answer : Option Answer)
  | link (answer : LinkAnswer)
  deriving DecidableEq, Repr

/-- A message on LINK TX (R175). -/
inductive Message where
  | answer (a : Answer)
  | linkAnswer (a : LinkAnswer)
  | notice (n : Notice)
  deriving DecidableEq, Repr

/-- The Command Link (R165, R169, R171, R173 to R175). The gap timer runs exactly outside HUNTING
(R167). -/
structure Link where
  rx : Rx
  held : Option Held
  answers : List Place
  notices : List Notice
  wire : Option Message
  overrun : Bool
  deriving DecidableEq, Repr

/-- The levels of the input lines GUARD and RESET (Table 0-2). The level of VOICE is the Voice Gate's voice
level (R158). -/
structure Board where
  guardHigh : Bool
  resetLow : Bool
  deriving DecidableEq, Repr

/-! ## The whole part -/

/-- The state of the part. `raised` holds the events that a block has raised for another block and that the
other has not yet taken, oldest first, each as the command that takes it. `lastAnswer` and `ties` are
the MODEL's own: the last answer an owner made (log entry 2), and the number of free values
of `Config.answerFirst` used so far (log entry 3). -/
structure State where
  /-- Commands that wait, first in, first out. -/
  pending : List Instr
  lnk : Link
  pos : Pos
  cst : CueStore
  cfu : Option Operation
  psc : Psc
  ciu : Ciu
  ovl : Ovl
  pch : Pch
  vgt : Vgt
  board : Board
  raised : List Instr
  lastAnswer : Option Answer
  ties : Nat
  deriving DecidableEq, Repr

/-- Reasons a step can stop the machine. The spec names none: whatever a command or an event is refused
for, the part answers it and goes on (R172). So no constructor, and no step faults. -/
inductive Fault where
  deriving DecidableEq, Repr

/-- Reasons the model can give for having no meaning. -/
inductive Refusal where
  /-- Raised by an arm of `exec` for a command whose meaning is not modelled. Safe: nothing can be proved of
  the command. No arm raises it now. -/
  | notModelled (mnemonic : String)
  deriving DecidableEq, Repr

/-! ## Reset values -/

/-- An EMPTY reel as a cold reset leaves it (R23). -/
def Reel.reset : Reel :=
  { tag := 0, state := .empty, cues := [], order := [], earliest := none, latest := none, conform := none }

/-- The Cue Store after a cold reset (R23). -/
def CueStore.reset : CueStore :=
  { reels := Vector.replicate 8 Reel.reset, playReel := 0, editReel := 0, pendingPlay := none }

/-- The Position Reader after a cold reset (R82). -/
def Pos.reset : Pos :=
  { rate := .fps24, limit := 5, state := .unknown, n := 0, b := 0, dir := .forward, period := none,
    mark := false, count := 0, mismatch := false }

/-- The Pass Scheduler after either reset (R108). -/
def Psc.reset : Psc := { ctxs := Vector.replicate 4 none, pointer := none, refind := false }

/-- A beat state not in use (R117). -/
def Beat.reset : Beat := { start := none, cue := none, current := none, gate := false }

/-- The Count-In Unit after either reset (R117). The divider in use has no value in the spec while nothing
sounds: DESIGN CHOICE 0 (log entry 6). -/
def Ciu.reset : Ciu :=
  { beats := Vector.replicate 4 Beat.reset, last := none,
    tone := { level := false, sounding := none, divider := 0, count := none } }

/-- The Overlay Composer after a cold reset (R128). -/
def Ovl.reset : Ovl := { flash := 1, quiet := true, wire := none, waiting := none }

/-- A punch line after a cold reset (R147). -/
def Line.reset : Line := { mode := .manual, activeLow := false, owner := .nobody, isIn := false }

/-- The Punch Unit after a cold reset with GUARD high (R147). -/
def Pch.reset : Pch :=
  { lines := Vector.replicate 8 Line.reset, staged := Vector.replicate 4 none, manual := none,
    lastEdge := none, view := .unknown, unit := .normal }

/-- The Voice Gate after a cold reset with VOICE low (R162, R163). -/
def Vgt.reset : Vgt :=
  { qualify := 8, allowance := 12, level := false, last := none, run := .idle, start := none, count := 0 }

/-- The Command Link after either reset (R178). -/
def Link.reset : Link :=
  { rx := .hunting, held := none, answers := [], notices := [], wire := none, overrun := false }

/-- The part right after power-on, with GUARD and RESET high and VOICE low: the levels of those lines are
the board's, not the part's (DESIGN CHOICE, log entry 5). -/
def State.reset : State :=
  { pending := [], lnk := Link.reset, pos := Pos.reset, cst := CueStore.reset, cfu := none,
    psc := Psc.reset, ciu := Ciu.reset, ovl := Ovl.reset, pch := Pch.reset, vgt := Vgt.reset,
    board := { guardHigh := true, resetLow := false }, raised := [], lastAnswer := none, ties := 0 }

end Sys2Proof.Machine
end

