-- ==== Sys2Proof/Machine/Operands.lean ====
section
/-! DEFINITION. Reading the operands of commands: sets of lines, coded values (Table 10-4), timecode labels
and frame numbers (Section 4.2), clamping (Section 2.1.2), and the frames a cue runs on. -/

namespace Sys2Proof.Machine

/-! ## Sets of lines and contexts (R180) -/

/-- The set whose members are the line numbers that satisfy `p`. -/
def setOf (p : Fin 8 → Bool) : LineSet :=
  (if p 0 then 1#8 else 0#8) ||| (if p 1 then 2#8 else 0#8) ||| (if p 2 then 4#8 else 0#8)
    ||| (if p 3 then 8#8 else 0#8) ||| (if p 4 then 16#8 else 0#8) ||| (if p 5 then 32#8 else 0#8)
    ||| (if p 6 then 64#8 else 0#8) ||| (if p 7 then 128#8 else 0#8)

/-- Membership of a line in a set. -/
def inSet (k : Fin 8) (s : LineSet) : Bool := s.getLsbD k.val

/-- Every member of `a` is a member of `b`. -/
def subset (a b : LineSet) : Bool := a &&& ~~~b == 0

/-- The set of contexts that satisfy `p`. -/
def ctxSetOf (p : Fin 4 → Bool) : CtxSet :=
  (if p 0 then 1#8 else 0#8) ||| (if p 1 then 2#8 else 0#8) ||| (if p 2 then 4#8 else 0#8)
    ||| (if p 3 then 8#8 else 0#8)

/-! ## Coded values (Table 10-4) -/

/-- Rate codes (R64). -/
def rateOf (code : Byte) : Option Rate :=
  if code = 0 then some .fps24
  else if code = 1 then some .fps25
  else if code = 2 then some .fps30
  else if code = 3 then some .drop30
  else none

/-- Mode codes. -/
def modeOf (code : Byte) : Option Mode :=
  if code = 0 then some .once else if code = 1 then some .cycle else none

/-- Arm kind codes. -/
def armKindOf (code : Byte) : Option ArmKind :=
  if code = 0 then some .rehearse else if code = 1 then some .record else none

/-- Action codes of PUNCH_MANUAL. -/
def actionOf (code : Byte) : Option Action :=
  if code = 0 then some .punchOut else if code = 1 then some .punchIn else none

/-- On/off bytes (R180). -/
def onOffOf (code : Byte) : Option Bool :=
  if code = 0 then some false else if code = 1 then some true else none

/-- Reel numbers: a number above 7 names no reel (R1). -/
def reelOf (code : Byte) : Option (Fin 8) :=
  if h : code.toNat < 8 then some ⟨code.toNat, h⟩ else none

/-- The contexts PASS_ABORT names: one of 0 to 3, or all for FFH (R106, Table 10-3). -/
def contextsOf (code : Byte) : Option (List (Fin 4)) :=
  if code = 0xFF then some allCtx
  else if h : code.toNat < 4 then some [⟨code.toNat, h⟩]
  else none

/-- A loop number is 1 to 9999 (R25). -/
def loopOk (loop : BitVec 16) : Bool := 1 ≤ loop.toNat && loop.toNat ≤ 9999

/-- A take number is 1 to 99 (R155). -/
def takeOk (take : Byte) : Bool := 1 ≤ take.toNat && take.toNat ≤ 99

/-! ## Labels and frame numbers (Section 4.2) -/

end Sys2Proof.Machine

namespace Sys2Proof

/-- Whether the fields of a label are in range at a frame rate (R65). -/
def Label.inRange (l : Label) (fps : Nat) : Bool :=
  l.hh.toNat ≤ 23 && l.mm.toNat ≤ 59 && l.ss.toNat ≤ 59 && l.ff.toNat < fps

/-- A label that drop-frame code leaves out (R66). -/
def Label.dropped (l : Label) : Bool :=
  l.ss.toNat == 0 && l.ff.toNat ≤ 1 && l.mm.toNat % 10 != 0

/-- Whether a label is valid at a rate (R65, R66). -/
def Label.valid (l : Label) (rate : Rate) : Bool :=
  l.inRange rate.fps && !(rate.isDrop && l.dropped)

/-- The frame number of a valid label (R65, R66). -/
def Label.number (l : Label) (rate : Rate) : Nat :=
  let minutes := l.hh.toNat * 60 + l.mm.toNat
  if rate.isDrop then
    minutes * 1800 + l.ss.toNat * 30 + l.ff.toNat - 2 * (minutes - minutes / 10)
  else
    (minutes * 60 + l.ss.toNat) * rate.fps + l.ff.toNat

/-- The frame number a label converts to at a rate, if it is valid there. -/
def Label.frame (l : Label) (rate : Rate) : Option Nat :=
  if l.valid rate then some (l.number rate) else none

end Sys2Proof

namespace Sys2Proof.Machine

/-- The non-drop split of a frame number at a frame rate (R65). -/
def splitFrame (n fps : Nat) : Label :=
  let seconds := n / fps
  { hh := BitVec.ofNat 8 (seconds / 3600), mm := BitVec.ofNat 8 (seconds / 60 % 60),
    ss := BitVec.ofNat 8 (seconds % 60), ff := BitVec.ofNat 8 (n % fps) }

/-- The correction of a drop-frame frame number (R67, steps 1 and 2). -/
def dropCorrection (n : Nat) : Nat :=
  let d := n / 17982
  let m := n % 17982
  if m < 2 then 18 * d else 18 * d + 2 * ((m - 2) / 1798)

/-- The label of a frame number at a rate (R65, R67). -/
def labelOf (rate : Rate) (n : Nat) : Label :=
  if rate.isDrop then splitFrame (n + dropCorrection n) 30 else splitFrame n rate.fps

/-! ## Clamping of given values (R28, R29) -/

/-- Beeps: above 4 becomes 4. -/
def clampBeeps (v : Nat) : Nat := min v 4

/-- Beep spacing: below 6 becomes 6, above 60 becomes 60. -/
def clampSpacing (v : Nat) : Nat := if v < 6 then 6 else min v 60

/-- Tone: below 23 becomes 23, above 239 becomes 239. -/
def clampTone (v : Nat) : Nat := if v < 23 then 23 else min v 239

/-- Streamer length: 1 to 11 becomes 12, above 240 becomes 240. -/
def clampStreamer (v : Nat) : Nat := if v = 0 then 0 else if v < 12 then 12 else min v 240

/-- Streamer colour: above 7 becomes 7. -/
def clampColour (v : Nat) : Nat := min v 7

/-- Tail: above 240 becomes 240. -/
def clampTail (v : Nat) : Nat := min v 240

/-- The limit of the beep on-time at a spacing (R29). -/
def onTimeLimit (spacing : Nat) : Nat := spacing * Config.ticksPerFrame

/-- The values a CUE_WRITE stores: clamped as R28 and R29 state. -/
def storedVals (f : CueFields) (inPt outPt : Nat) (mode : Mode) : CueVals :=
  { inPt := inPt, outPt := outPt, char := f.char, beeps := clampBeeps f.beeps.toNat,
    spacing := clampSpacing f.spacing.toNat,
    onTime := min f.onTime.toNat (onTimeLimit (clampSpacing f.spacing.toNat)),
    tone := clampTone f.tone.toNat, streamer := clampStreamer f.streamer.toNat,
    colour := clampColour f.colour.toNat, tail := clampTail f.tail.toNat, lines := f.lines, mode := mode }

/-- Whether a CUE_WRITE brought any given value into range (R25, R28). -/
def writeClamped (f : CueFields) : Bool :=
  clampBeeps f.beeps.toNat != f.beeps.toNat || clampSpacing f.spacing.toNat != f.spacing.toNat
    || decide (onTimeLimit (clampSpacing f.spacing.toNat) < f.onTime.toNat)
    || clampTone f.tone.toNat != f.tone.toNat || clampStreamer f.streamer.toNat != f.streamer.toNat
    || clampColour f.colour.toNat != f.colour.toNat || clampTail f.tail.toNat != f.tail.toNat

/-- Whether a given value is absent or in range. -/
def unclamped (clamp : Nat → Nat) (v : Option Nat) : Bool := v.all fun x => clamp x == x

/-- A set of amended fields that names nothing. -/
def EditVals.none : EditVals :=
  { inPt := Option.none, outPt := Option.none, char := Option.none, beeps := Option.none, spacing := Option.none,
    onTime := Option.none, tone := Option.none, streamer := Option.none, colour := Option.none,
    tail := Option.none, lines := Option.none, mode := Option.none }

/-- The values a set of amended fields gives over others: each named field takes its new value. -/
def EditVals.over (e : EditVals) (v : CueVals) : CueVals :=
  { inPt := e.inPt.getD v.inPt, outPt := e.outPt.getD v.outPt, char := e.char.getD v.char,
    beeps := e.beeps.getD v.beeps, spacing := e.spacing.getD v.spacing, onTime := e.onTime.getD v.onTime,
    tone := e.tone.getD v.tone, streamer := e.streamer.getD v.streamer, colour := e.colour.getD v.colour,
    tail := e.tail.getD v.tail, lines := e.lines.getD v.lines, mode := e.mode.getD v.mode }

/-- A later amend merged into a pending edit field by field (R36). -/
def EditVals.merge (new old : EditVals) : EditVals :=
  { inPt := new.inPt.or old.inPt, outPt := new.outPt.or old.outPt, char := new.char.or old.char,
    beeps := new.beeps.or old.beeps, spacing := new.spacing.or old.spacing, onTime := new.onTime.or old.onTime,
    tone := new.tone.or old.tone, streamer := new.streamer.or old.streamer, colour := new.colour.or old.colour,
    tail := new.tail.or old.tail, lines := new.lines.or old.lines, mode := new.mode.or old.mode }

/-- The number of fields an amend names is not zero (R32, check 1). -/
def amendNames (f : AmendFields) : Bool :=
  f.inPt.isSome || f.outPt.isSome || f.char.isSome || f.beeps.isSome || f.spacing.isSome || f.onTime.isSome
    || f.tone.isSome || f.streamer.isSome || f.colour.isSome || f.tail.isSome || f.lines.isSome || f.mode.isSome

/-- An optional label that is present converts (R32, check 3); the frame it converts to. -/
def optFrame (rate : Rate) : Option Label → Option (Option Nat)
  | none => some none
  | some l => (l.frame rate).map some

/-- An optional mode byte that is present is a defined code (R25). -/
def optMode : Option Byte → Option (Option Mode)
  | none => some none
  | some m => (modeOf m).map some

/-- The fields an amend gives, clamped as R28 states, before the on-time limit of R29. -/
def amendGiven (f : AmendFields) (inPt outPt : Option Nat) (mode : Option Mode) : EditVals :=
  { inPt := inPt, outPt := outPt, char := f.char, beeps := f.beeps.map fun x => clampBeeps x.toNat,
    spacing := f.spacing.map fun x => clampSpacing x.toNat, onTime := f.onTime.map BitVec.toNat,
    tone := f.tone.map fun x => clampTone x.toNat, streamer := f.streamer.map fun x => clampStreamer x.toNat,
    colour := f.colour.map fun x => clampColour x.toNat, tail := f.tail.map fun x => clampTail x.toNat,
    lines := f.lines, mode := mode }

/-- The on-time limit of R29 applied to given fields: `run` is what the cue will run on after the command.
An on-time above the limit of the spacing becomes the limit and is an amended field in its own right. -/
def EditVals.limited (e : EditVals) (run : CueVals) : EditVals :=
  if onTimeLimit run.spacing < run.onTime then { e with onTime := some (onTimeLimit run.spacing) } else e

/-- Whether an amend brought any value into range (R25, R28, R29). -/
def amendClamped (f : AmendFields) (run : CueVals) : Bool :=
  !unclamped clampBeeps (f.beeps.map BitVec.toNat) || !unclamped clampSpacing (f.spacing.map BitVec.toNat)
    || !unclamped clampTone (f.tone.map BitVec.toNat) || !unclamped clampStreamer (f.streamer.map BitVec.toNat)
    || !unclamped clampColour (f.colour.map BitVec.toNat) || !unclamped clampTail (f.tail.map BitVec.toNat)
    || decide (onTimeLimit run.spacing < run.onTime)

/-! ## The frames of a pass (R85, R109) -/

/-- The lead: the largest of the count-in length, the streamer length and one frame (R85). -/
def CueVals.lead (v : CueVals) : Nat := max (v.beeps * v.spacing) (max v.streamer 1)

/-- The entry frame E, clamped at 0 (R85). -/
def CueVals.entry (v : CueVals) : Nat := v.inPt - v.lead

/-- The close frame X by arithmetic (R85). -/
def CueVals.close (v : CueVals) : Nat := v.outPt + v.tail

/-- The count-in values of a cue (R110). -/
def CueVals.countIn (v : CueVals) : CountIn :=
  { inPt := v.inPt, beeps := v.beeps, spacing := v.spacing, onTime := v.onTime, tone := v.tone }

/-- The beat frame B_j; B_(n+1) is the in-point (R109). -/
def CountIn.beatFrame (c : CountIn) (j : Nat) : Int :=
  (c.inPt : Int) - ((c.beeps + 1 : Nat) - (j : Int)) * (c.spacing : Int)

/-- The arm kind of a cue, present while it is ARMED or PASSING (R16). -/
def CueState.kind : CueState → Option ArmKind
  | .armed k => some k
  | .passing k => some k
  | .ready => none
  | .done => none

/-- Whether a cue is PASSING. -/
def CueState.isPassing : CueState → Bool
  | .passing _ => true
  | .ready | .armed _ | .done => false

end Sys2Proof.Machine
end

