-- ==== Sys2Proof/Machine/Flags.lean ====
section
/-! DEFINITION. The flags and marks that follow from the state of a block: rate agreement, speed and IN_SPEED
(Sections 4.1.2, 4.3), the timers of the Position Reader, the reel-state check of the cue commands
(Table 2-1), and the frame after a frame round the day (R76). -/

namespace Sys2Proof.Machine

/-- `a / b` rounded to the nearest integer with halves upward (R61, R68). -/
def roundDiv (a b : Nat) : Nat := (2 * a + b) / (2 * b)

/-- The speed in permille of a period at a rate: nominal period × 1000 / period (R61, R68). -/
def speedOf (rate : Rate) (period : Nat) : Nat := roundDiv (rate.nominal * 1000) period

/-- The speed a position reports: 0 where no period is held (R68). -/
def Pos.speed (p : Pos) : Nat :=
  match p.period with
  | some d => speedOf p.rate d
  | none => 0

/-- Whether a position state carries running time: LOCKED or FREEWHEEL. -/
def isRunning : PosState → Bool
  | .locked => true
  | .freewheel => true
  | .unknown => false
  | .stopped => false

/-- IN_SPEED (R69). -/
def Pos.inSpeed (p : Pos) : Bool :=
  isRunning p.state && decide (875 ≤ p.speed) && decide (p.speed ≤ 1125) && p.mark

/-- The watch timer: running in LOCKED for P plus one eighth of P clocks (R73). -/
def Pos.watchTimer (p : Pos) : Option Nat :=
  match p.state with
  | .locked => p.period.map fun d => d + d / 8
  | .unknown | .freewheel | .stopped => none

/-- The freewheel timer: running in FREEWHEEL for P clocks (R74). -/
def Pos.freewheelTimer (p : Pos) : Option Nat :=
  match p.state with
  | .freewheel => p.period
  | .unknown | .locked | .stopped => none

/-- The interval of the ticks of a freewheeling position: P divided by 80, rounded down (R78). -/
def Pos.tickInterval (p : Pos) : Option Nat := p.freewheelTimer.map fun d => d / Config.ticksPerFrame

/-- The position in ticks T (R70). -/
def Pos.tick (p : Pos) : Nat := p.n * Config.ticksPerFrame + p.b

/-- The frame after `n` in a direction, round the day (R76). -/
def nextFrame (rate : Rate) (n : Nat) : Dir → Nat
  | .forward => if n + 1 < rate.fDay then n + 1 else 0
  | .reverse => if n = 0 then rate.fDay - 1 else n - 1

/-- The first cell index of a frame in a direction (R78). -/
def firstCell : Dir → Nat
  | .forward => 0
  | .reverse => 79

/-- The gap timer runs from the start byte to the check byte of a message (R167). -/
def Link.gapTimer (l : Link) : Bool :=
  match l.rx with
  | .hunting => false
  | .length | .body _ _ | .check _ _ => true

/-- The groups of cue commands that Table 2-1 treats alike. -/
inductive CueCommand where
  | edit
  | arming
  | protect
  deriving DecidableEq, Repr

/-- The second check of every cue command: the refusal of Table 2-1, if any (R26). -/
def reelRefusal : CueCommand → ReelState → Option Result
  | .edit, .conforming => some .reelBusy
  | .edit, .locked => some .reelBusy
  | .edit, .partly => some .reelPartial
  | .arming, .conforming => some .reelBusy
  | .arming, .partly => some .reelPartial
  | .protect, .partly => some .reelPartial
  | .edit, .empty | .edit, .opened => none
  | .arming, .empty | .arming, .opened | .arming, .locked => none
  | .protect, .empty | .protect, .opened | .protect, .conforming | .protect, .locked => none

end Sys2Proof.Machine
end

