-- ==== Sys2Proof/Machine/Layout.lean ====
section
/-! DEFINITION. The byte layouts of Chapter 10: the bodies of the controller's commands read and written
(R179 to R182), the lengths a kind allows (R170), and the bytes of answers, notices and overlay
descriptors (R183 to R186). -/

namespace Sys2Proof.Machine

/-! ## Numbers as bytes, most significant byte first (R180) -/

/-- The two bytes of a 16-bit field. -/
def bytes16 (v : BitVec 16) : List Byte := [v.extractLsb' 8 8, v.extractLsb' 0 8]

/-- The four bytes of a 32-bit field. -/
def bytes32 (v : BitVec 32) : List Byte :=
  [v.extractLsb' 24 8, v.extractLsb' 16 8, v.extractLsb' 8 8, v.extractLsb' 0 8]

/-- A 16-bit field from its two bytes. -/
def word16 (a b : Byte) : BitVec 16 := a ++ b

/-- A 32-bit field from its four bytes. -/
def word32 (a b c d : Byte) : BitVec 32 := a ++ b ++ c ++ d

/-- A number in `w` bytes. -/
def natBytes : Nat → Nat → List Byte
  | 0, _ => []
  | w + 1, n => natBytes w (n / 256) ++ [BitVec.ofNat 8 n]

/-- A signed number in `w` bytes, two's complement. -/
def intBytes (w : Nat) (v : Int) : List Byte := natBytes w (v % (256 : Int) ^ w).toNat

/-- The four bytes of a timecode field (R181). -/
def labelBytes (l : Label) : List Byte := [l.hh, l.mm, l.ss, l.ff]

/-- A byte that stands for yes or no (R180). -/
def flagByte (b : Bool) : Byte := if b then 1 else 0

/-! ## The commands of the controller (Table 10-3) -/

/-- The kind byte of a controller's command; events have none. -/
def kindOf : Instr → Option Byte
  | .status => some 0x01
  | .restart => some 0x02
  | .setRate _ => some 0x08
  | .setFreewheel _ => some 0x09
  | .positionRead => some 0x0A
  | .setVoice _ _ => some 0x0C
  | .setFlash _ => some 0x0D
  | .setLines _ _ => some 0x10
  | .punchManual _ _ => some 0x11
  | .guardRelease => some 0x12
  | .passAbort _ => some 0x18
  | .reelSelectPlay _ _ => some 0x20
  | .reelSelectEdit _ => some 0x20
  | .reelSelectTag _ _ _ => some 0x20
  | .reelInfo _ => some 0x21
  | .reelClear => some 0x22
  | .reelShift _ => some 0x24
  | .reelCopy _ _ _ => some 0x25
  | .reelResume => some 0x26
  | .cueWrite _ _ => some 0x28
  | .cueAmend _ _ _ => some 0x29
  | .cueRetire _ => some 0x2A
  | .cueRead _ => some 0x2B
  | .cueNext _ => some 0x2C
  | .cueArm _ _ => some 0x2D
  | .cueDisarm _ => some 0x2E
  | .cueProtect _ _ => some 0x2F
  | .takeCircle _ _ _ => some 0x30
  | .takeRetire _ _ => some 0x31
  | .coldReset | .warmReset _ | .rxByte _ _ | .gapTimerExpiry | .txMessageEnd | .ltcFrame _
  | .watchTimerExpiry | .freewheelTimerExpiry | .posTick | .pscFrameEdge _ | .pscStateEvent _ _
  | .punchReport _ | .guardReport | .pchFrameEdge _ | .stageRequest _ | .release _ _
  | .pchStateEvent _ _ | .guardTrip _ | .guardRise | .ciuTick _ _ | .entryHandover _ _
  | .freeHandover _ | .laneReport _ | .ovlStateEvent _ _ | .descriptorSent | .voiceEdge _
  | .vgtTick _ _ | .vgtStateEvent _ _ | .onsetReport _ _ _ | .shiftStep | .copyStep
  | .toneHalfWave | .resetRelease => none

/-- The high byte of the field mask of an amend: the reserved bits 15 to 12, then bits 11 to 8. -/
def maskHigh (reserved : BitVec 4) (f : AmendFields) : Byte :=
  reserved ++ BitVec.ofBool f.mode.isSome ++ BitVec.ofBool f.lines.isSome
    ++ BitVec.ofBool f.tail.isSome ++ BitVec.ofBool f.colour.isSome

/-- The low byte of the field mask of an amend: bits 7 to 0. -/
def maskLow (f : AmendFields) : Byte :=
  BitVec.ofBool f.streamer.isSome ++ BitVec.ofBool f.tone.isSome ++ BitVec.ofBool f.onTime.isSome
    ++ BitVec.ofBool f.spacing.isSome ++ BitVec.ofBool f.beeps.isSome ++ BitVec.ofBool f.char.isSome
    ++ BitVec.ofBool f.outPt.isSome ++ BitVec.ofBool f.inPt.isSome

/-- The bytes of a one-byte field that may be absent. -/
def optByte (b : Option Byte) : List Byte := b.elim [] fun x => [x]

/-- The bytes of a two-byte field that may be absent. -/
def optWord (b : Option (BitVec 16)) : List Byte := b.elim [] bytes16

/-- The bytes of a timecode field that may be absent. -/
def optLabel (b : Option Label) : List Byte := b.elim [] labelBytes

/-- The named fields of an amend in increasing order of mask bit (Table 10-5). -/
def amendBytes (f : AmendFields) : List Byte :=
  optLabel f.inPt ++ (optLabel f.outPt ++ (optByte f.char ++ (optByte f.beeps ++ (optByte f.spacing
    ++ (optWord f.onTime ++ (optByte f.tone ++ (optByte f.streamer ++ (optByte f.colour
    ++ (optWord f.tail ++ (optByte f.lines ++ optByte f.mode))))))))))

/-- The form byte of a REEL_SELECT: that of its own form, or an undefined one (R182). -/
def formByte (own : Byte) : Option UndefinedForm → Byte
  | none => own
  | some f => BitVec.ofNat 8 (f.val + 3)

/-- The undefined form that a form byte is, if it is one (R182). -/
def undefinedForm (form : Byte) : Option UndefinedForm :=
  if h : 3 ≤ form.toNat then some ⟨form.toNat - 3, by have := form.isLt; omega⟩ else none

/-- The fields of a controller's command, after the kind byte (Table 10-3). -/
def fieldBytes : Instr → List Byte
  | .setRate c => [c]
  | .setFreewheel c => [c]
  | .setVoice q a => [q, a]
  | .setFlash c => [c]
  | .setLines m p => [m, p]
  | .punchManual l a => [l, a]
  | .passAbort c => [c]
  | .reelSelectPlay r form => [formByte 0x00 form, r]
  | .reelSelectEdit r => [0x01, r]
  | .reelSelectTag r t form => [formByte 0x02 form, r] ++ bytes16 t
  | .reelInfo r => [r]
  | .reelShift d => bytes32 d
  | .reelCopy a b d => [a, b] ++ bytes32 d
  | .cueWrite l f => bytes16 l ++ (labelBytes f.inPt ++ (labelBytes f.outPt ++ ([f.char, f.beeps, f.spacing]
      ++ (bytes16 f.onTime ++ ([f.tone, f.streamer, f.colour] ++ (bytes16 f.tail ++ [f.lines, f.mode]))))))
  | .cueAmend l r f => bytes16 l ++ ([maskHigh r f, maskLow f] ++ amendBytes f)
  | .cueRetire l => bytes16 l
  | .cueRead l => bytes16 l
  | .cueNext t => labelBytes t
  | .cueArm l k => bytes16 l ++ [k]
  | .cueDisarm l => bytes16 l
  | .cueProtect l v => bytes16 l ++ [v]
  | .takeCircle l t v => bytes16 l ++ [t, v]
  | .takeRetire l t => bytes16 l ++ [t]
  | .status | .restart | .positionRead | .guardRelease | .reelClear | .reelResume
  | .coldReset | .warmReset _ | .rxByte _ _ | .gapTimerExpiry | .txMessageEnd | .ltcFrame _
  | .watchTimerExpiry | .freewheelTimerExpiry | .posTick | .pscFrameEdge _ | .pscStateEvent _ _
  | .punchReport _ | .guardReport | .pchFrameEdge _ | .stageRequest _ | .release _ _
  | .pchStateEvent _ _ | .guardTrip _ | .guardRise | .ciuTick _ _ | .entryHandover _ _
  | .freeHandover _ | .laneReport _ | .ovlStateEvent _ _ | .descriptorSent | .voiceEdge _
  | .vgtTick _ _ | .vgtStateEvent _ _ | .onsetReport _ _ _ | .shiftStep | .copyStep
  | .toneHalfWave | .resetRelease => []

/-- The body of the message that carries a command: the kind, then its fields (R179). -/
def bodyOf (i : Instr) : List Byte :=
  match kindOf i with
  | some k => k :: fieldBytes i
  | none => []

/-- A one-byte field cut from the front of a body, if its mask bit is set. -/
def cutByte (on : Bool) (bs : List Byte) : Option (Option Byte × List Byte) :=
  if on then
    match bs with
    | b :: rest => some (some b, rest)
    | [] => none
  else some (none, bs)

/-- A two-byte field cut from the front of a body, if its mask bit is set. -/
def cutWord (on : Bool) (bs : List Byte) : Option (Option (BitVec 16) × List Byte) :=
  if on then
    match bs with
    | a :: b :: rest => some (some (word16 a b), rest)
    | _ => none
  else some (none, bs)

/-- A timecode field cut from the front of a body, if its mask bit is set. -/
def cutLabel (on : Bool) (bs : List Byte) : Option (Option Label × List Byte) :=
  if on then
    match bs with
    | a :: b :: c :: d :: rest => some (some ⟨a, b, c, d⟩, rest)
    | _ => none
  else some (none, bs)

/-- The named fields of an amend read in increasing order of mask bit (Table 10-5). -/
def readAmend (hi lo : Byte) (bs : List Byte) : Option AmendFields :=
  (cutLabel (lo.getLsbD 0) bs).bind fun (inPt, bs) =>
  (cutLabel (lo.getLsbD 1) bs).bind fun (outPt, bs) =>
  (cutByte (lo.getLsbD 2) bs).bind fun (char, bs) =>
  (cutByte (lo.getLsbD 3) bs).bind fun (beeps, bs) =>
  (cutByte (lo.getLsbD 4) bs).bind fun (spacing, bs) =>
  (cutWord (lo.getLsbD 5) bs).bind fun (onTime, bs) =>
  (cutByte (lo.getLsbD 6) bs).bind fun (tone, bs) =>
  (cutByte (lo.getLsbD 7) bs).bind fun (streamer, bs) =>
  (cutByte (hi.getLsbD 0) bs).bind fun (colour, bs) =>
  (cutWord (hi.getLsbD 1) bs).bind fun (tail, bs) =>
  (cutByte (hi.getLsbD 2) bs).bind fun (lines, bs) =>
  (cutByte (hi.getLsbD 3) bs).bind fun (mode, bs) =>
  if bs.isEmpty then
    some { inPt, outPt, char, beeps, spacing, onTime, tone, streamer, colour, tail, lines, mode }
  else none

/-- A command without fields. -/
def read0 (i : Instr) : List Byte → Option Instr
  | [] => some i
  | _ => none

/-- A command of one one-byte field. -/
def read1 (f : Byte → Instr) : List Byte → Option Instr
  | [a] => some (f a)
  | _ => none

/-- A command of two one-byte fields. -/
def read2 (f : Byte → Byte → Instr) : List Byte → Option Instr
  | [a, b] => some (f a b)
  | _ => none

/-- A command of a loop number. -/
def readLoop (f : BitVec 16 → Instr) : List Byte → Option Instr
  | [a, b] => some (f (word16 a b))
  | _ => none

/-- A command of a loop number and a byte. -/
def readLoop1 (f : BitVec 16 → Byte → Instr) : List Byte → Option Instr
  | [a, b, c] => some (f (word16 a b) c)
  | _ => none

/-- The three forms of REEL_SELECT. A body of three or five bytes whose form byte is no defined form goes to the Cue Store
as a play or a tag form that carries that form byte (R182, log entry 4). -/
def readSelect : List Byte → Option Instr
  | [form, reel] =>
    if form = 0x01 then some (.reelSelectEdit reel)
    else if form = 0x02 then none
    else some (.reelSelectPlay reel (undefinedForm form))
  | [form, reel, a, b] =>
    if form = 0x00 ∨ form = 0x01 then none else some (.reelSelectTag reel (word16 a b) (undefinedForm form))
  | _ => none

/-- The fields of REEL_SHIFT. -/
def readShift : List Byte → Option Instr
  | [a, b, c, d] => some (.reelShift (word32 a b c d))
  | _ => none

/-- The fields of REEL_COPY. -/
def readCopy : List Byte → Option Instr
  | [s, t, a, b, c, d] => some (.reelCopy s t (word32 a b c d))
  | _ => none

/-- The fields of CUE_WRITE (Table 10-5). -/
def readWrite : List Byte → Option Instr
  | [l0, l1, i0, i1, i2, i3, o0, o1, o2, o3, char, beeps, spacing, n0, n1, tone, streamer, colour, t0, t1,
      lines, mode] =>
    some (.cueWrite (word16 l0 l1)
      { inPt := ⟨i0, i1, i2, i3⟩, outPt := ⟨o0, o1, o2, o3⟩, char, beeps, spacing, onTime := word16 n0 n1,
        tone, streamer, colour, tail := word16 t0 t1, lines, mode })
  | _ => none

/-- The fields of CUE_AMEND: loop number, field mask, named fields. -/
def readAmendCommand : List Byte → Option Instr
  | l0 :: l1 :: hi :: lo :: rest =>
    (readAmend hi lo rest).map fun f => .cueAmend (word16 l0 l1) (hi.extractLsb' 4 4) f
  | _ => none

/-- The label of CUE_NEXT. -/
def readNext : List Byte → Option Instr
  | [a, b, c, d] => some (.cueNext ⟨a, b, c, d⟩)
  | _ => none

/-- The fields of TAKE_CIRCLE. -/
def readCircle : List Byte → Option Instr
  | [a, b, t, v] => some (.takeCircle (word16 a b) t v)
  | _ => none

/-- The command that a body spells, as its owner reads it (Table 10-3). `none` for a body that no command
of the table has. -/
def commandOf : List Byte → Option Instr
  | [] => none
  | k :: fs =>
    if k = 0x01 then read0 .status fs
    else if k = 0x02 then read0 .restart fs
    else if k = 0x08 then read1 .setRate fs
    else if k = 0x09 then read1 .setFreewheel fs
    else if k = 0x0A then read0 .positionRead fs
    else if k = 0x0C then read2 .setVoice fs
    else if k = 0x0D then read1 .setFlash fs
    else if k = 0x10 then read2 .setLines fs
    else if k = 0x11 then read2 .punchManual fs
    else if k = 0x12 then read0 .guardRelease fs
    else if k = 0x18 then read1 .passAbort fs
    else if k = 0x20 then readSelect fs
    else if k = 0x21 then read1 .reelInfo fs
    else if k = 0x22 then read0 .reelClear fs
    else if k = 0x24 then readShift fs
    else if k = 0x25 then readCopy fs
    else if k = 0x26 then read0 .reelResume fs
    else if k = 0x28 then readWrite fs
    else if k = 0x29 then readAmendCommand fs
    else if k = 0x2A then readLoop .cueRetire fs
    else if k = 0x2B then readLoop .cueRead fs
    else if k = 0x2C then readNext fs
    else if k = 0x2D then readLoop1 .cueArm fs
    else if k = 0x2E then readLoop .cueDisarm fs
    else if k = 0x2F then readLoop1 .cueProtect fs
    else if k = 0x30 then readCircle fs
    else if k = 0x31 then readLoop1 .takeRetire fs
    else none

/-- The command kinds with the one body length they allow; REEL_SELECT and CUE_AMEND are apart (R170). -/
def fixedLengths : List (Byte × Nat) :=
  [(0x01, 1), (0x02, 1), (0x08, 2), (0x09, 2), (0x0A, 1), (0x0C, 3), (0x0D, 2), (0x10, 3), (0x11, 3),
   (0x12, 1), (0x18, 2), (0x21, 2), (0x22, 1), (0x24, 5), (0x25, 7), (0x26, 1), (0x28, 23), (0x2A, 3),
   (0x2B, 3), (0x2C, 5), (0x2D, 4), (0x2E, 3), (0x2F, 4), (0x30, 5), (0x31, 4)]

/-- Whether a kind is a command kind (R168, test 3). -/
def isCommandKind (k : Byte) : Bool := k == 0x20 || k == 0x29 || (fixedLengths.lookup k).isSome

/-- The widths of the fields a mask names, from Table 10-5; reserved bits add none (R182). -/
def maskWidths (hi lo : Byte) : Nat :=
  let w (on : Bool) (n : Nat) : Nat := if on then n else 0
  w (lo.getLsbD 0) 4 + w (lo.getLsbD 1) 4 + w (lo.getLsbD 2) 1 + w (lo.getLsbD 3) 1 + w (lo.getLsbD 4) 1
    + w (lo.getLsbD 5) 2 + w (lo.getLsbD 6) 1 + w (lo.getLsbD 7) 1 + w (hi.getLsbD 0) 1 + w (hi.getLsbD 1) 2
    + w (hi.getLsbD 2) 1 + w (hi.getLsbD 3) 1

/-- Whether the length of a body is one its kind allows (R168 test 4, R170, R182). -/
def lengthAllowed : List Byte → Bool
  | [] => false
  | k :: fs =>
    if k = 0x20 then
      match fs with
      | form :: _ =>
        if form = 0x00 ∨ form = 0x01 then fs.length == 2
        else if form = 0x02 then fs.length == 4
        else fs.length == 2 || fs.length == 4
      | [] => false
    else if k = 0x29 then
      match fs with
      | _ :: _ :: hi :: lo :: rest => rest.length == maskWidths hi lo
      | _ => false
    else
      match fixedLengths.lookup k with
      | some n => fs.length + 1 == n
      | none => false

/-! ## Codes of answers and notices (Tables 10-2 and 10-4) -/

/-- Result codes (Table 10-2). -/
def Result.code : Result → Byte
  | .done => 0x00
  | .adjusted => 0x01
  | .pending => 0x02
  | .linkError => 0x10
  | .overrun => 0x11
  | .unknownKind => 0x12
  | .badLength => 0x13
  | .badField => 0x14
  | .badTimecode => 0x15
  | .noSuchCue => 0x16
  | .duplicateLoop => 0x17
  | .reelFull => 0x18
  | .reelBusy => 0x19
  | .reelPartial => 0x1A
  | .reelNotEmpty => 0x1B
  | .outOfDay => 0x1C
  | .conformBusy => 0x1D
  | .noSuchTake => 0x1E
  | .protectedCue => 0x20
  | .passActive => 0x21
  | .takesFull => 0x22
  | .takeLimit => 0x23
  | .noLines => 0x24
  | .lineBusy => 0x25
  | .notManual => 0x26
  | .guarded => 0x27
  | .guardActive => 0x28

/-- Position state codes. -/
def posCode : PosState → Byte
  | .unknown => 0
  | .locked => 1
  | .freewheel => 2
  | .stopped => 3

/-- Direction codes. -/
def dirCode : Dir → Byte
  | .forward => 0
  | .reverse => 1

/-- Punch unit state codes. -/
def UnitState.code : UnitState → Byte
  | .normal => 0
  | .guarded => 1

/-- Reel state codes. -/
def ReelState.code : ReelState → Byte
  | .empty => 0
  | .opened => 1
  | .conforming => 2
  | .locked => 3
  | .partly => 4

/-- Conform operation codes; 0 is none. -/
def ConformOp.code : ConformOp → Byte
  | .shift => 1
  | .copy _ => 2

/-- The source reel byte: FFH where it is absent. -/
def ConformOp.sourceByte : ConformOp → Byte
  | .shift => 0xFF
  | .copy r => BitVec.ofNat 8 r.val

/-- Arm kind codes. -/
def ArmKind.code : ArmKind → Byte
  | .rehearse => 0
  | .record => 1

/-- Mode codes. -/
def Mode.code : Mode → Byte
  | .once => 0
  | .cycle => 1

/-- Phase codes. -/
def phaseCode : Phase → Byte
  | .lead => 0
  | .line => 1
  | .tail => 2

/-- PASS_END outcome codes. -/
def PassOutcome.code : PassOutcome → Byte
  | .completed => 0
  | .aborted .reverse => 1
  | .aborted .offSpeed => 2
  | .aborted .jump => 3
  | .aborted .stopped => 4
  | .aborted .commanded => 5
  | .aborted .retired => 6

/-- MISSED cause codes. -/
def MissedCause.code : MissedCause → Byte
  | .lateStart => 1
  | .noContext => 2
  | .notEntered => 3

/-- PUNCH source codes. -/
def PunchSource.code : PunchSource → Byte
  | .context k => BitVec.ofNat 8 k.val
  | .manual => 4

/-- Take result codes. -/
def TakeResult.code : TakeResult → Byte
  | .opened => 0
  | .complete => 1
  | .partialLines => 2
  | .guarded => 3
  | .aborted => 4

/-! ## Cue and take records (Section 10.3) -/

/-- A take record in six bytes (Table 10-7); an offset above 8,388,607 is carried as that (R184). -/
def Take.bytes (t : Take) : List Byte :=
  [ (BitVec.ofNat 8 (t.number % 128)) ||| (flagByte t.circled <<< 7),
    t.result.code ||| (flagByte t.late <<< 3) ||| (flagByte t.guardTripped <<< 4) ||| (flagByte t.offset.isSome <<< 5),
    t.lines ] ++ intBytes 3 (min (t.offset.getD 0) 8388607)

/-- The cue body in 22 bytes (Table 10-5), frames as labels at a rate. -/
def cueBodyBytes (rate : Rate) (loop : Nat) (v : CueVals) : List Byte :=
  natBytes 2 loop ++ labelBytes (labelOf rate v.inPt) ++ labelBytes (labelOf rate v.outPt)
    ++ [v.char, BitVec.ofNat 8 v.beeps, BitVec.ofNat 8 v.spacing] ++ natBytes 2 v.onTime
    ++ [BitVec.ofNat 8 v.tone, BitVec.ofNat 8 v.streamer, BitVec.ofNat 8 v.colour] ++ natBytes 2 v.tail
    ++ [v.lines, v.mode.code]

/-- The amended fields of a pending edit as the amend that would give them (Table 10-6). -/
def EditVals.asAmend (rate : Rate) (e : EditVals) : AmendFields :=
  { inPt := e.inPt.map (labelOf rate), outPt := e.outPt.map (labelOf rate), char := e.char,
    beeps := e.beeps.map (BitVec.ofNat 8), spacing := e.spacing.map (BitVec.ofNat 8),
    onTime := e.onTime.map (BitVec.ofNat 16), tone := e.tone.map (BitVec.ofNat 8),
    streamer := e.streamer.map (BitVec.ofNat 8), colour := e.colour.map (BitVec.ofNat 8),
    tail := e.tail.map (BitVec.ofNat 16), lines := e.lines, mode := e.mode.map Mode.code }

/-- The bytes of a pending edit: field mask, then the named fields (Table 10-6). -/
def pendingBytes (rate : Rate) (p : PendingEdit) : List Byte :=
  let a := p.fields.asAmend rate
  [maskHigh 0 a, maskLow a] ++ amendBytes a

/-- How many of the takes held a cue answer carries (R184). -/
def takesCarried (rate : Rate) (c : Cue) : Nat :=
  match c.pending with
  | none => c.takes.length
  | some p => min c.takes.length ((64 - 27 - (pendingBytes rate p).length) / 6)

/-- The state byte of a cue answer (Table 10-6). -/
def Cue.stateByte (c : Cue) : Byte :=
  let state : Byte :=
    match c.state with
    | .ready => 0
    | .armed _ => 1
    | .passing _ => 2
    | .done => 3
  let kind : Byte :=
    match c.state.kind with
    | none => 0
    | some .rehearse => 1
    | some .record => 2
  state ||| (kind <<< 2) ||| (flagByte c.protect <<< 4) ||| (flagByte c.waited <<< 5)
    ||| (flagByte c.conformPending <<< 6) ||| (flagByte c.pending.isSome <<< 7)

/-- A cue answer after its result (Table 10-6): the newest takes that fit, oldest first (R184). -/
def cueAnswerBytes (rate : Rate) (c : Cue) : List Byte :=
  let carried := takesCarried rate c
  cueBodyBytes rate c.loop c.vals ++ [c.stateByte]
    ++ [(BitVec.ofNat 8 (c.nextTake % 128)) ||| (flagByte (c.pending.any fun p => p.disarm) <<< 7),
        (BitVec.ofNat 8 c.takes.length) ||| (BitVec.ofNat 8 carried <<< 4)]
    ++ (c.takes.drop (c.takes.length - carried)).flatMap Take.bytes
    ++ c.pending.elim [] (pendingBytes rate)

/-! ## Answers, notices and frames (R179, R183) -/

/-- The four bytes of a timecode field that may be absent in an answer: FFH bytes (R180). -/
def labelOrAbsent (l : Option Label) : List Byte := l.elim [0xFF, 0xFF, 0xFF, 0xFF] labelBytes

/-- The conform part of a REEL_INFO answer (R183). -/
def conformBytes : Option ConformRecord → List Byte
  | none => [0, 0xFF, 0xFF, 0xFF, 0xFF, 0xFF, 0xFF]
  | some r => [r.op.code] ++ intBytes 4 r.delta ++ [r.op.sourceByte, BitVec.ofNat 8 r.cursor]

/-- The data of an answer (R183). -/
def AnswerData.bytes : AnswerData → List Byte
  | .nothing => []
  | .status i =>
    [posCode i.position, i.punchUnit.code, flagByte i.guardHigh, i.operation.elim 0 fun o => o.op.code,
     i.operation.elim 0xFF fun o => BitVec.ofNat 8 o.target.val, i.contexts, flagByte i.overrun]
  | .position i =>
    [posCode i.state, dirCode i.dir] ++ natBytes 2 i.speed ++ [flagByte i.inSpeed] ++ labelBytes i.label
      ++ [BitVec.ofNat 8 i.tick]
  | .aborted s => [s]
  | .reel i =>
    [BitVec.ofNat 8 i.reel.val] ++ bytes16 i.tag ++ [i.state.code, BitVec.ofNat 8 i.count]
      ++ labelOrAbsent i.earliest ++ labelOrAbsent i.latest ++ conformBytes i.conform
      ++ [flagByte i.isPlay ||| (flagByte i.isEdit <<< 1) ||| (flagByte i.isPending <<< 2)]
  | .cue rate c => cueAnswerBytes rate c

/-- The body of an owner's answer: 80H plus the kind, the result, the data (R183). -/
def Answer.body (a : Answer) : List Byte := (0x80 + a.kind) :: a.result.code :: a.data.bytes

/-- The body of an answer of the link's own (R183). -/
def LinkAnswer.body (a : LinkAnswer) : List Byte := [0x80, a.result.code, a.kind]

/-- The body of a notice (Table 10-3). -/
def Notice.body : Notice → List Byte
  | .passBegin k r l c kind late =>
    [0xC1, BitVec.ofNat 8 k.val, BitVec.ofNat 8 r.val] ++ natBytes 2 l ++ [c, kind.code, flagByte late]
  | .passEnd k r l o p t =>
    [0xC2, BitVec.ofNat 8 k.val, BitVec.ofNat 8 r.val] ++ natBytes 2 l ++ [o.code, phaseCode p]
      ++ t.elim [] Take.bytes
  | .missed l c => [0xC3] ++ natBytes 2 l ++ [c.code]
  | .takesFull l => [0xC4] ++ natBytes 2 l
  | .punch s i o r => [0xC5, s.code, i, o, r]
  | .guardTripped l => [0xC6, l]
  | .position s d => [0xC7, posCode s, dirCode d]
  | .rateMismatch f => [0xC8, flagByte f]
  | .conformDone r op => [0xC9, BitVec.ofNat 8 r.val, op.code]
  | .reelSwitched r => [0xCA, BitVec.ofNat 8 r.val]

/-- The sum of bytes modulo 256 (R168). -/
def byteSum (bs : List Byte) : Byte := bs.foldl (· + ·) 0

/-- A body framed for the link: start byte, length, body, check byte (R179). -/
def frameBytes (body : List Byte) : List Byte :=
  let len : Byte := BitVec.ofNat 8 body.length
  0xD5 :: len :: body ++ [-(len + byteSum body)]

/-- The body of a message on LINK TX. -/
def Message.body : Message → List Byte
  | .answer a => a.body
  | .linkAnswer a => a.body
  | .notice n => n.body

/-! ## The overlay descriptor (R185) -/

/-- A lane in five bytes (Table 10-9). -/
def Lane.bytes (l : Lane) : List Byte :=
  [ (BitVec.ofNat 8 l.ctx.val) ||| (phaseCode l.phase <<< 2) ||| (flagByte l.flash <<< 4) ||| (flagByte l.bar <<< 5),
    l.char,
    (BitVec.ofNat 8 (l.colour % 8)) ||| (BitVec.ofNat 8 (l.digit.getD 0 % 8) <<< 4) ]
    ++ l.column.elim [0xFF, 0xFF] (natBytes 2)

/-- A descriptor on OVL DATA (Table 10-8). -/
def Descriptor.bytes (d : Descriptor) : List Byte :=
  let inner := natBytes 3 d.frame ++ [posCode d.state, BitVec.ofNat 8 d.lanes.length] ++ d.lanes.flatMap Lane.bytes
  0xA7 :: inner ++ [-(byteSum inner)]

end Sys2Proof.Machine
end

