-- ==== Sys2Proof/Machine/Ops.lean ====
section
/-! DEFINITION. The shared operations: raising notices and events, the transmitter's choice, the answer of an
owner to a command, and the reading and changing of reels, cue records, order lists, takes and
contexts. Every meaning is written over these. -/

namespace Sys2Proof.Machine

/-! ## The Command Link -/

/-- The transmitter's choice: an idle transmitter sends the filled answer at the head of the answer list,
otherwise the oldest notice, otherwise nothing (R175). What is sent leaves its list (R171, R173). -/
def Link.choose (l : Link) : Link :=
  match l.wire with
  | some _ => l
  | none =>
    match l.answers with
    | .owner (some a) :: rest => { l with wire := some (.answer a), answers := rest }
    | .link a :: rest => { l with wire := some (.linkAnswer a), answers := rest }
    | .owner none :: _ | [] =>
      match l.notices with
      | n :: rest => { l with wire := some (.notice n), notices := rest }
      | [] => l

/-- A notice joins the queue, or is discarded with the overrun flag set when 24 wait (R173, R174). -/
def Link.join (n : Notice) (l : Link) : Link :=
  if l.notices.length < Config.noticeRoom then { l with notices := l.notices ++ [n] } else { l with overrun := true }

/-- The answers of the link's own that wait (R171). -/
def Link.ownAnswers (l : Link) : Nat :=
  (l.answers.filter fun p => match p with
    | .link _ => true
    | .owner _ => false).length

/-- An answer of the link's own is placed in the list, or its message is discarded with the overrun flag
set when three such answers wait (R171, R174). -/
def Link.place (a : LinkAnswer) (l : Link) : Link :=
  if l.ownAnswers < Config.linkAnswerRoom then { l with answers := l.answers ++ [.link a] } else { l with overrun := true }

/-- The empty place of the held command is filled with its owner's answer (R171). -/
def fillPlace (a : Answer) : List Place → List Place
  | [] => []
  | .owner none :: rest => .owner (some a) :: rest
  | .owner (some b) :: rest => .owner (some b) :: fillPlace a rest
  | .link b :: rest => .link b :: fillPlace a rest

/-- A command becomes held and takes its place in the answer list (R169, R171). -/
def Link.hold (body : List Byte) (l : Link) : Link :=
  { l with held := some { body := body, taken := false }, answers := l.answers ++ [.owner none] }

/-- The owner takes the held command (R170) and its answer fills the command's place (R171). -/
def Link.fill (a : Answer) (l : Link) : Link :=
  { l with held := l.held.map fun h => { h with taken := true }, answers := fillPlace a l.answers }

/-- The command that is held and not yet taken by its owner (R170). -/
def Link.waitingCommand (l : Link) : Option Instr :=
  l.held.bind fun h => if h.taken then none else commandOf h.body

/-! ## Raising notices and events -/

/-- The transmitter chooses, unless RESET is held low: LINK TX then stays idle (R175, R178). -/
def State.transmit (s : State) : State :=
  if s.board.resetLow then s else { s with lnk := s.lnk.choose }

/-- A block raises a notice (R173, R175). The transmitter chooses as each notice joins: of several notices that one event
raises while it is idle the first leaves the queue at once, and its place is free for the others. R175 has it choose in
each event that finds it idle, and does not say whether before or after the others have joined: the model's choice (log
entry 32). -/
def State.raise (n : Notice) (s : State) : State :=
  State.transmit { s with lnk := s.lnk.join n }

/-- Blocks raise events for other blocks. Each is the command that takes it. -/
def State.post (events : List Instr) (s : State) : State := { s with raised := s.raised ++ events }

/-- A block takes an event that was raised for it (log entry 1). -/
def State.taken (i : Instr) (s : State) : State := { s with raised := s.raised.erase i }

/-- The three ways between blocks whose order the spec fixes: requests and releases of the Pass Scheduler to the Punch Unit
(R133), reports of the Punch Unit to the Pass Scheduler (R144), and state events and lane reports to the Overlay Composer
(R119). -/
inductive Channel where
  | toPunchUnit
  | toScheduler
  | toOverlay
  deriving DecidableEq, Repr

/-- The ordered way an event goes, if it goes one. -/
def channelOf : Instr → Option Channel
  | .stageRequest _ | .release _ _ => some .toPunchUnit
  | .punchReport _ | .guardReport => some .toScheduler
  | .laneReport _ | .ovlStateEvent _ _ => some .toOverlay
  | .coldReset | .warmReset _ | .status | .restart | .setRate _ | .setFreewheel _ | .positionRead | .setVoice _ _
  | .setFlash _ | .setLines _ _ | .punchManual _ _ | .guardRelease | .passAbort _ | .reelSelectPlay _ _
  | .reelSelectEdit _ | .reelSelectTag _ _ _ | .reelInfo _ | .reelClear | .reelShift _ | .reelCopy _ _ _ | .reelResume
  | .cueWrite _ _ | .cueAmend _ _ _ | .cueRetire _ | .cueRead _ | .cueNext _ | .cueArm _ _ | .cueDisarm _
  | .cueProtect _ _ | .takeCircle _ _ _ | .takeRetire _ _ | .rxByte _ _ | .gapTimerExpiry | .txMessageEnd | .ltcFrame _
  | .watchTimerExpiry | .freewheelTimerExpiry | .posTick | .pscFrameEdge _ | .pscStateEvent _ _ | .pchFrameEdge _
  | .pchStateEvent _ _ | .guardTrip _ | .guardRise | .ciuTick _ _ | .entryHandover _ _ | .freeHandover _ | .descriptorSent | .voiceEdge _ | .vgtTick _ _ | .vgtStateEvent _ _ | .onsetReport _ _ _
  | .shiftStep | .copyStep | .toneHalfWave | .resetRelease => none

/-- Whether event `i` waits for an event `j` made before it: one of the same ordered way. The state event of UNKNOWN, which
comes of a SET_RATE, waits for no lane report: R119 lets either be taken first. -/
def waitsFor : Instr → Instr → Bool
  | .ovlStateEvent .unknown _, .laneReport _ => false
  | i, j => channelOf j == channelOf i

/-- Whether an event of an ordered way is the next to be taken on it: no event that it waits for and that was made before it
stands in `raised` (R119, R133, R144). -/
def State.inTurn (i : Instr) (s : State) : Bool := (s.raised.find? (waitsFor i)).all fun j => j == i

/-- A block takes an event of an ordered way and does `f`. An event sent before its turn is not taken: nothing changes, and
it waits with the others (R119, R133, R144, log entry 1). -/
def State.takeInTurn (i : Instr) (f : State → State) (s : State) : State :=
  if s.inTurn i then f (s.taken i) else s

/-! ## The answer of an owner (R170, R172) -/

/-- A result with the data of its answer. -/
structure Reply where
  result : Result
  data : AnswerData := .nothing
  deriving DecidableEq, Repr

/-- A command refused: nothing changes (R25, R172). -/
def refuse (r : Result) (s : State) : State × Reply := (s, { result := r })

/-- Whether the link carries the answer of command `i`: it is the command held and not yet taken, or none
is held (log entry 2). -/
def State.carries (i : Instr) (s : State) : Bool :=
  !s.board.resetLow && (s.lnk.held.isNone || s.lnk.waitingCommand == some i)

/-- The transmitter's choice in an event that both raised notices and filled an answer while it was idle:
the spec lets either go first, so the free value decides (R175, log entry 3). -/
def State.settleTie (wasIdle : Bool) (s : State) : State :=
  match wasIdle, s.lnk.wire, s.lnk.answers with
  | true, some (.notice n), .owner (some a) :: rest =>
    { s with
      ties := s.ties + 1,
      lnk :=
        if Config.answerFirst s.ties && decide (s.lnk.notices.length < Config.noticeRoom) then
          { s.lnk with wire := some (.answer a), answers := rest, notices := n :: s.lnk.notices }
        else s.lnk }
  | _, _, _ => s

/-- The link's part in the answer to command `i`, whose owner has turned `s` into `t`: a command that none
preceded becomes held here, the answer fills its place and the transmitter chooses. -/
def State.deliver (i : Instr) (a : Answer) (s t : State) : State :=
  let t := { t with lastAnswer := some a }
  if s.carries i then
    let l := if s.lnk.held.isNone then t.lnk.hold (bodyOf i) else t.lnk
    State.settleTie s.lnk.wire.isNone (State.transmit { t with lnk := l.fill a })
  else t

/-- The owner's event: it takes command `i`, does `f` and makes the answer, all in one event (R170). -/
def State.owner (i : Instr) (f : State → State × Reply) (s : State) : State :=
  let (t, r) := f s
  s.deliver i { kind := (kindOf i).getD 0, result := r.result, data := r.data } t

/-! ## Reels and cue records (Chapter 1) -/

/-- The live cue in a slot. -/
def Reel.cue (r : Reel) (slot : Nat) : Option Cue := r.cues.lookup slot

/-- The slot of the live cue that holds a loop number (R27). -/
def Reel.slotOf (r : Reel) (loop : Nat) : Option Nat :=
  (r.cues.find? fun p => p.2.loop == loop).map Prod.fst

/-- The cue count (R2). -/
def Reel.count (r : Reel) : Nat := r.cues.length

/-- A live cue is replaced by its changed record. -/
def Reel.modCue (slot : Nat) (f : Cue → Cue) (r : Reel) : Reel :=
  { r with cues := r.cues.map fun p => if p.1 = slot then (p.1, f p.2) else p }

/-- Insertion into the slot table, slots rising. -/
def insertSlot (slot : Nat) (c : Cue) : List (Nat × Cue) → List (Nat × Cue)
  | [] => [(slot, c)]
  | p :: rest => if slot < p.1 then (slot, c) :: p :: rest else p :: insertSlot slot c rest

/-- The lowest-numbered free slot of a reel (R1). -/
def Reel.freeSlot (r : Reel) : Option Nat :=
  (List.range Config.slotsPerReel).find? fun k => r.cues.all fun p => p.1 != k

/-- The delta of a reel's conform record, 0 without one. -/
def Reel.delta (r : Reel) : Int := r.conform.elim 0 fun c => c.delta

/-- The ordering key of a cue (R10). -/
def Reel.keyOf (r : Reel) (c : Cue) : Int :=
  if c.conformPending then (c.vals.inPt : Int) + r.delta else (c.vals.inPt : Int)

/-- The ordering key of the cue in a slot. -/
def Reel.key (r : Reel) (slot : Nat) : Int := (r.cue slot).elim 0 r.keyOf

/-- The loop number of the cue in a slot. -/
def Reel.loopAt (r : Reel) (slot : Nat) : Nat := (r.cue slot).elim 0 fun c => c.loop

/-- Whether the cue in slot `a` comes before the one in slot `b` (R9). -/
def Reel.before (r : Reel) (a b : Nat) : Bool :=
  decide (r.key a < r.key b) || (decide (r.key a = r.key b) && decide (r.loopAt a < r.loopAt b))

/-- A slot put at its position in a list of slots: before the first entry it comes before (R11). -/
def Reel.place (r : Reel) (slot : Nat) : List Nat → List Nat
  | [] => [slot]
  | x :: rest => if r.before slot x then slot :: x :: rest else x :: r.place slot rest

/-- A cue joins the order list (R11). -/
def Reel.joinOrder (slot : Nat) (r : Reel) : Reel := { r with order := r.place slot r.order }

/-- A cue leaves the order list (R11). -/
def Reel.leaveOrder (slot : Nat) (r : Reel) : Reel := { r with order := r.order.erase slot }

/-- The earliest in-point and latest out-point recomputed from the live cues (R2). -/
def Reel.recompute (r : Reel) : Reel :=
  { r with earliest := (r.cues.map fun p => p.2.vals.inPt).min?, latest := (r.cues.map fun p => p.2.vals.outPt).max? }

/-- A record created by CUE_WRITE or by a copy step: READY, unmarked, without takes (R31, R54). -/
def newCue (loop : Nat) (v : CueVals) : Cue :=
  { loop := loop, vals := v, state := .ready, protect := false, waited := false, conformPending := false,
    nextTake := 1, takes := [], pending := none }

/-- A cue is created in a slot and joins the order list (R1, R11). -/
def Reel.create (slot : Nat) (c : Cue) (r : Reel) : Reel :=
  Reel.joinOrder slot { r with cues := insertSlot slot c r.cues }

/-- A cue is removed: its slot is free, it leaves the order list, the header is recomputed, and a reel
without cues is EMPTY (R40). -/
def Reel.remove (slot : Nat) (r : Reel) : Reel :=
  let r := Reel.recompute { Reel.leaveOrder slot r with cues := r.cues.filter fun p => p.1 != slot }
  if r.cues.isEmpty then { r with state := .empty } else r

/-- In-use values take new ones, with the effects of an edit applied (R35): a changed in-point clears the
waited flag and moves the cue in its order list, a changed in-point or out-point recomputes the header. -/
def Reel.applyVals (slot : Nat) (c : Cue) (v : CueVals) (r : Reel) : Reel :=
  let moved := v.inPt != c.vals.inPt
  let r := r.modCue slot fun x => { x with vals := v, waited := x.waited && !moved }
  let r := if moved then Reel.joinOrder slot (Reel.leaveOrder slot r) else r
  if moved || v.outPt != c.vals.outPt then r.recompute else r

/-! ## Reels and cues of the store -/

/-- A reel of the store. -/
def State.reel (s : State) (r : Fin 8) : Reel := s.cst.reels[r]

/-- The reel that cue and take commands act on (R5). -/
def State.editReel (s : State) : Reel := s.reel s.cst.editReel

/-- The reel whose cues the Pass Scheduler runs (R6). -/
def State.playReel (s : State) : Reel := s.reel s.cst.playReel

/-- A reel is changed. -/
def State.modReel (r : Fin 8) (f : Reel → Reel) (s : State) : State :=
  { s with cst := { s.cst with reels := s.cst.reels.set r (f s.cst.reels[r]) } }

/-- A cue record is changed. -/
def State.modCue (r : Fin 8) (slot : Nat) (f : Cue → Cue) (s : State) : State :=
  s.modReel r (Reel.modCue slot f)

/-- The live cue in a slot of a reel. -/
def State.cue (s : State) (r : Fin 8) (slot : Nat) : Option Cue := (s.reel r).cue slot

/-- The re-find mark is set when the reel changed is the play reel (R86). -/
def State.markIfPlay (r : Fin 8) (s : State) : State :=
  if r = s.cst.playReel then { s with psc := { s.psc with refind := true } } else s

/-- In-use values of a cue take new ones, and a moved in-point of the play reel sets the re-find mark
(R35, R38, R86). -/
def State.applyVals (r : Fin 8) (slot : Nat) (c : Cue) (v : CueVals) (s : State) : State :=
  let s := s.modReel r (Reel.applyVals slot c v)
  if v.inPt != c.vals.inPt then s.markIfPlay r else s

/-! ## Takes (Chapter 8) -/

/-- The take of a number. -/
def Cue.take (c : Cue) (number : Nat) : Option Take := c.takes.find? fun t => t.number == number

/-- A take is replaced by its changed record. -/
def Cue.modTake (number : Nat) (f : Take → Take) (c : Cue) : Cue :=
  { c with takes := c.takes.map fun t => if t.number = number then f t else t }

/-- A take leaves the list; the next take number stays (R149). -/
def Cue.dropTake (number : Nat) (c : Cue) : Cue :=
  { c with takes := c.takes.filter fun t => t.number != number }

/-- Whether the cue holds six circled takes (R42, R97). -/
def Cue.allCircled (c : Cue) : Bool :=
  decide (Config.takesPerCue ≤ c.takes.length) && c.takes.all fun t => t.circled

/-- Whether a staging edge finds room for a take (R97, R150). -/
def Cue.hasRoom (c : Cue) : Bool := decide (c.nextTake < 100) && !c.allCircled

/-- A new take joins the list; of six takes the oldest uncircled one leaves first (R97, R150). -/
def Cue.addTake (late : Bool) (c : Cue) : Cue :=
  let kept :=
    if Config.takesPerCue ≤ c.takes.length then c.takes.eraseP fun t => !t.circled else c.takes
  { c with
    takes := kept ++ [{ number := c.nextTake, result := .opened, lines := 0, late := late, guardTripped := false,
                        offset := none, circled := false }],
    nextTake := c.nextTake + 1 }

/-- An OPEN take becomes ABORTED with the lines its context held (R104, R153). -/
def Take.abort (held : LineSet) (t : Take) : Take :=
  if t.result = .opened then { t with result := .aborted, lines := held } else t

/-- The result of a take closed at its out-point edge (R152, rows 2 to 4). -/
def closeResult (guardTripped : Bool) (assigned punched : LineSet) : TakeResult :=
  if guardTripped then .guarded else if subset assigned punched then .complete else .partialLines

/-- An OPEN take is closed at its out-point edge (R100). -/
def Take.close (assigned punched : LineSet) (t : Take) : Take :=
  if t.result = .opened then { t with result := closeResult t.guardTripped assigned punched, lines := punched } else t

/-! ## Pass contexts (Chapter 5) -/

/-- A context is given a value: ACTIVE with its fields, or FREE. -/
def State.setCtx (k : Fin 4) (c : Option Ctx) (s : State) : State :=
  { s with psc := { s.psc with ctxs := s.psc.ctxs.set k c } }

/-- The fields of a context, if it is ACTIVE. -/
def State.ctx (s : State) (k : Fin 4) : Option Ctx := s.psc.ctxs[k]

/-- Whether every context is FREE (R6). -/
def State.allFree (s : State) : Bool := allCtx.all fun k => (s.ctx k).isNone

/-- The lowest-numbered FREE context (R93). -/
def State.firstFree (s : State) : Option (Fin 4) := allCtx.find? fun k => (s.ctx k).isNone

/-- The contexts that are ACTIVE, as a set (R176). -/
def State.activeSet (s : State) : CtxSet := ctxSetOf fun k => (s.ctx k).isSome

/-- Whether a context serves a cue. -/
def Ctx.serves (r : Fin 8) (slot : Nat) (c : Ctx) : Bool := c.reel == r && c.slot == slot

/-- The context that serves a cue (R83). -/
def State.serving (s : State) (r : Fin 8) (slot : Nat) : Option (Fin 4) :=
  allCtx.find? fun k => (s.ctx k).any (Ctx.serves r slot)

/-- The take a context reserved, as the cue's list holds it (R102). -/
def State.takeOf (s : State) (c : Ctx) : Option Take :=
  c.take.bind fun number => (s.cue c.reel c.slot).bind fun cue => cue.take number

/-- The play reel takes a value, and the pointer is to be re-found (R6, R8). -/
def State.switchPlay (r : Fin 8) (s : State) : State :=
  State.raise (.reelSwitched r)
    { s with cst := { s.cst with playReel := r, pendingPlay := none }, psc := { s.psc with refind := true } }

/-- A pending play reel is applied in the event that frees the last ACTIVE context (R8). -/
def State.applyPendingPlay (s : State) : State :=
  match s.allFree, s.cst.pendingPlay with
  | true, some r => s.switchPlay r
  | _, _ => s

end Sys2Proof.Machine
end

