-- ==== Sys2Proof/Machine/Passes.lean ====
section
/-! DEFINITION. How a pass ends and how its cue is settled: closes, aborts and retirements (Sections 5.7, 5.8,
R41), shared by the Pass Scheduler, PASS_ABORT, CUE_RETIRE and the warm reset. -/

namespace Sys2Proof.Machine

/-- The state of a cue after its pass: READY for a pending disarm, DONE for a completed pass of a ONCE cue,
otherwise ARMED with the kind it had (R101, R105). -/
def settleState (completed disarm : Bool) (mode : Mode) : CueState → CueState
  | .passing kind =>
    if disarm then .ready
    else if completed && decide (mode = .once) then .done
    else .armed kind
  | .ready => .ready
  | .armed kind => .armed kind
  | .done => .done

/-- The values a cue runs on once its pending edit, if any, is applied (R38). -/
def Cue.settledVals (c : Cue) : CueVals := c.pending.elim c.vals fun p => p.fields.over c.vals

/-- Whether the pending-disarm mark is set (R19). -/
def Cue.disarmed (c : Cue) : Bool := c.pending.any fun p => p.disarm

/-- A cue leaves its pass: the pending edit is applied and removed, then the state is settled (R101 steps 1
to 4, R105). -/
def State.settleCue (completed : Bool) (r : Fin 8) (slot : Nat) (s : State) : State :=
  match s.cue r slot with
  | none => s
  | some c =>
    (s.applyVals r slot c c.settledVals).modCue r slot fun x =>
      { x with pending := none, state := settleState completed c.disarmed c.settledVals.mode x.state }

/-- The OPEN take of an aborted pass becomes ABORTED with the lines held (R104). -/
def State.abortTake (c : Ctx) (s : State) : State :=
  match c.take with
  | none => s
  | some number => s.modCue c.reel c.slot (Cue.modTake number (Take.abort c.held))

/-- A context becomes FREE, and the Count-In Unit is handed its index (R83, R110). -/
def State.freeCtx (k : Fin 4) (s : State) : State := (s.setCtx k none).post [.freeHandover k]

/-- PASS_END is raised for a pass of context `k` (R102). -/
def State.raiseEnd (k : Fin 4) (c : Ctx) (outcome : PassOutcome) (take : Option Take) (s : State) : State :=
  s.raise (.passEnd k c.reel c.loop outcome c.phase take)

/-- An abort of a context (R104, R105): release, take, cue, PASS_END, context, pending play reel. A pass
aborted in TAIL counts as completed. A FREE context is aborted by nothing. -/
def State.abortCtx (cause : AbortCause) (k : Fin 4) (s : State) : State :=
  match s.ctx k with
  | none => s
  | some c =>
    let s := (s.post [.release k c.loop]).abortTake c
    let s := s.settleCue (decide (c.phase = .tail)) c.reel c.slot
    let s := s.raiseEnd k c (.aborted cause) (s.takeOf c)
    (s.freeCtx k).applyPendingPlay

/-- The abort a retirement makes (R41): the cue, its take and its pending edit are about to go, so nothing is
settled and PASS_END carries no take. -/
def State.retireCtx (k : Fin 4) (s : State) : State :=
  match s.ctx k with
  | none => s
  | some c =>
    let s := (s.post [.release k c.loop]).raiseEnd k c (.aborted .retired) none
    (s.freeCtx k).applyPendingPlay

/-- The close of a pass (R101). -/
def State.closeCtx (k : Fin 4) (s : State) : State :=
  match s.ctx k with
  | none => s
  | some c =>
    let s := s.settleCue true c.reel c.slot
    let s := s.raiseEnd k c .completed (s.takeOf c)
    (s.freeCtx k).applyPendingPlay

/-- Several contexts are aborted on one event, in index order (R104). -/
def State.abortAll (cause : AbortCause) (ks : List (Fin 4)) (s : State) : State :=
  ks.foldl (fun s k => s.abortCtx cause k) s

end Sys2Proof.Machine
end

