-- ==== Sys2Proof/Machine/Reels.lean ====
section
/-! DEFINITION. The reel commands of the Cue Store: the three forms of REEL_SELECT, REEL_INFO and REEL_CLEAR
(Chapter 1, R60), and the lookups of cues (Section 1.5). -/

namespace Sys2Proof.Machine

/-- A command that names a reel: a number above 7 is refused BAD_FIELD (R1). -/
def withReel (code : Byte) (f : Fin 8 → State → State × Reply) (s : State) : State × Reply :=
  match reelOf code with
  | none => refuse .badField s
  | some r => f r s

/-- The play form of REEL_SELECT (R6, R7). -/
def State.selectPlay (r : Fin 8) (s : State) : State × Reply :=
  if s.allFree then
    if r = s.cst.playReel then (s, { result := .done }) else (s.switchPlay r, { result := .done })
  else if r = s.cst.playReel then
    ({ s with cst := { s.cst with pendingPlay := none } }, { result := .done })
  else ({ s with cst := { s.cst with pendingPlay := some r } }, { result := .pending })

/-- A REEL_SELECT whose form byte is no defined form is refused BAD_FIELD (R182). -/
def withForm (form : Option UndefinedForm) (f : State → State × Reply) (s : State) : State × Reply :=
  match form with
  | some _ => refuse .badField s
  | none => f s

/-- REEL_SELECT, play form (R6, R7). -/
def execReelSelectPlay (reel : Byte) (s : State) (form : Option UndefinedForm := none) :
    Host.Outcome State Fault Refusal :=
  .next (s.owner (.reelSelectPlay reel form) (withForm form (withReel reel State.selectPlay)))

/-- REEL_SELECT, edit form (R5). -/
def execReelSelectEdit (reel : Byte) (s : State) : Host.Outcome State Fault Refusal :=
  .next (s.owner (.reelSelectEdit reel) (withReel reel fun r s =>
    ({ s with cst := { s.cst with editReel := r } }, { result := .done })))

/-- REEL_SELECT, tag form (R3). -/
def execReelSelectTag (reel : Byte) (tag : BitVec 16) (s : State) (form : Option UndefinedForm := none) :
    Host.Outcome State Fault Refusal :=
  .next (s.owner (.reelSelectTag reel tag form) (withForm form (withReel reel fun r s =>
    (s.modReel r fun x => { x with tag := tag }, { result := .done }))))

/-- What REEL_INFO answers (R22). -/
def State.reelInfo (s : State) (r : Fin 8) : ReelInfo :=
  let x := s.reel r
  { reel := r, tag := x.tag, state := x.state, count := x.count, earliest := x.earliest.map (labelOf s.pos.rate),
    latest := x.latest.map (labelOf s.pos.rate), conform := x.conform, isPlay := decide (r = s.cst.playReel),
    isEdit := decide (r = s.cst.editReel), isPending := decide (s.cst.pendingPlay = some r) }

/-- REEL_INFO (R22). -/
def execReelInfo (reel : Byte) (s : State) : Host.Outcome State Fault Refusal :=
  .next (s.owner (.reelInfo reel) (withReel reel fun r s => (s, { result := .done, data := .reel (s.reelInfo r) })))

/-! ## REEL_CLEAR -/

/-- A cleared reel: EMPTY, without cues, points or conform record; the tag is kept (R60, R3). -/
def Reel.cleared (r : Reel) : Reel := { Reel.reset with tag := r.tag }

/-- The LOCKED source of a cleared PARTIAL copy destination becomes OPEN (R60). -/
def State.releaseSource (conform : Option ConformRecord) (s : State) : State :=
  match conform with
  | some { op := .copy source, .. } => s.modReel source fun x => { x with state := .opened }
  | some { op := .shift, .. } => s
  | none => s

/-- Whether a reel holds a PASSING cue (R49, R60). -/
def Reel.anyPassing (r : Reel) : Bool := r.cues.any fun p => p.2.state.isPassing

/-- The effect of a clear of an OPEN or PARTIAL reel (R60). -/
def State.clearReel (r : Fin 8) (s : State) : State :=
  let x := s.reel r
  let s := (s.modReel r Reel.cleared).releaseSource x.conform
  if x.cues.isEmpty then s else s.markIfPlay r

/-- REEL_CLEAR (R60). -/
def execReelClear (s : State) : Host.Outcome State Fault Refusal :=
  .next (s.owner .reelClear fun s =>
    let x := s.editReel
    match x.state with
    | .conforming => refuse .reelBusy s
    | .locked => refuse .reelBusy s
    | .empty => (s, { result := .done })
    | .opened | .partly =>
      if x.anyPassing then refuse .passActive s else (s.clearReel s.cst.editReel, { result := .done }))

/-! ## Lookups (Section 1.5) -/

/-- A command that names an existing cue of the edit reel by loop number, after its first check (R27). -/
def withCue (loop : BitVec 16) (f : Nat → Cue → State → State × Reply) (s : State) : State × Reply :=
  match s.editReel.slotOf loop.toNat with
  | none => refuse .noSuchCue s
  | some slot =>
    match s.editReel.cue slot with
    | none => refuse .noSuchCue s
    | some c => f slot c s

/-- The answer of a cue lookup: the record as it stands (R20). -/
def State.readCue (s : State) (c : Cue) : Reply := { result := .done, data := .cue s.pos.rate c }

/-- CUE_READ (R20). -/
def execCueRead (loop : BitVec 16) (s : State) : Host.Outcome State Fault Refusal :=
  .next (s.owner (.cueRead loop) fun s =>
    if loopOk loop then withCue loop (fun _ c s => (s, s.readCue c)) s else refuse .badField s)

/-- The first cue of a reel, in list order, whose ordering key is equal to or above a frame (R21). -/
def Reel.nextCue (n : Nat) (r : Reel) : Option Cue :=
  (r.order.find? fun slot => decide ((n : Int) ≤ r.key slot)).bind r.cue

/-- CUE_NEXT (R21). -/
def execCueNext (label : Label) (s : State) : Host.Outcome State Fault Refusal :=
  .next (s.owner (.cueNext label) fun s =>
    match label.frame s.pos.rate with
    | none => refuse .badTimecode s
    | some n =>
      match s.editReel.nextCue n with
      | none => refuse .noSuchCue s
      | some c => (s, s.readCue c))

end Sys2Proof.Machine
end

