-- ==== Sys2Proof/Machine/Conform.lean ====
section
/-! DEFINITION. The Conform Unit (Chapter 3): starting a shift or a copy, resuming one, and the steps of background
work. -/

namespace Sys2Proof.Machine

/-- The magnitude of a delta is at most F_day − 1 (R48). -/
def deltaOk (rate : Rate) (delta : Int) : Bool := decide (delta.natAbs ≤ rate.fDay - 1)

/-- The range pre-check against the two header points of the reel whose records will move (R48). -/
def inDay (rate : Rate) (delta : Int) (r : Reel) : Bool :=
  (r.earliest.all fun e => decide (0 ≤ (e : Int) + delta))
    && (r.latest.all fun l => decide ((l : Int) + delta ≤ (rate.fDay : Int) - 1))

/-- The unit takes an operation, and the conform record stands in the header of its target (R47). -/
def State.startConform (op : ConformOp) (target : Fin 8) (delta : Int) (s : State) : State :=
  let s := s.modReel target fun r =>
    { r with state := .conforming, conform := some { op := op, delta := delta, cursor := 0 } }
  { s with cfu := some { op := op, target := target, delta := delta, cursor := 0 } }

/-! ## REEL_SHIFT -/

/-- The conform-pending flag is set on every cue of a reel (R49). -/
def Reel.flagAll (r : Reel) : Reel :=
  { r with cues := r.cues.map fun p => (p.1, { p.2 with conformPending := true }) }

/-- Checks 2 to 6 of REEL_SHIFT and its effect (R49). -/
def State.startShift (delta : Int) (s : State) : State × Reply :=
  let x := s.editReel
  if s.cfu.isSome then refuse .conformBusy s
  else if x.state = .partly then refuse .reelPartial s
  else if x.state = .locked then refuse .reelBusy s
  else if x.anyPassing then refuse .passActive s
  else if !inDay s.pos.rate delta x then refuse .outOfDay s
  else if x.state = .empty then (s, { result := .done })
  else
    let r := s.cst.editReel
    (((s.modReel r Reel.flagAll).startConform .shift r delta).markIfPlay r, { result := .pending })

/-- REEL_SHIFT (R49). -/
def execReelShift (delta : BitVec 32) (s : State) : Host.Outcome State Fault Refusal :=
  .next (s.owner (.reelShift delta) fun s =>
    if deltaOk s.pos.rate delta.toInt then s.startShift delta.toInt else refuse .badField s)

/-! ## REEL_COPY -/

/-- Whether a cue of a reel holds a pending edit that names its in-point or out-point (R52, check 6). -/
def Reel.framesPending (r : Reel) : Bool :=
  r.cues.any fun p => p.2.pending.any fun e => e.fields.inPt.isSome || e.fields.outPt.isSome

/-- Checks 2 to 7 of REEL_COPY and its effect (R52, R53). -/
def State.startCopy (source dest : Fin 8) (delta : Int) (s : State) : State × Reply :=
  let x := s.reel source
  if s.cfu.isSome then refuse .conformBusy s
  else if x.state = .partly then refuse .reelPartial s
  else if x.state = .locked then refuse .reelBusy s
  else if (s.reel dest).state ≠ .empty then refuse .reelNotEmpty s
  else if x.framesPending then refuse .passActive s
  else if !inDay s.pos.rate delta x then refuse .outOfDay s
  else if x.state = .empty then (s, { result := .done })
  else
    ((s.modReel source fun r => { r with state := .locked }).startConform (.copy source) dest delta,
     { result := .pending })

/-- REEL_COPY (R52, R53). -/
def execReelCopy (source dest : Byte) (delta : BitVec 32) (s : State) : Host.Outcome State Fault Refusal :=
  .next (s.owner (.reelCopy source dest delta) fun s =>
    match reelOf source, reelOf dest with
    | some a, some b =>
      if a ≠ b ∧ deltaOk s.pos.rate delta.toInt then s.startCopy a b delta.toInt else refuse .badField s
    | _, _ => refuse .badField s)

/-! ## REEL_RESUME -/

/-- The unit takes the operation of a PARTIAL reel's conform record (R59). -/
def State.resume (s : State) : State × Reply :=
  let r := s.cst.editReel
  if s.cfu.isSome then refuse .conformBusy s
  else if s.editReel.state = .locked then refuse .reelBusy s
  else
    match s.editReel.state, s.editReel.conform with
    | .partly, some c =>
      let s := s.modReel r fun x => { x with state := .conforming }
      ({ s with cfu := some { op := c.op, target := r, delta := c.delta, cursor := c.cursor } }, { result := .pending })
    | _, _ => refuse .badField s

/-- REEL_RESUME (R59). -/
def execReelResume (s : State) : Host.Outcome State Fault Refusal :=
  .next (s.owner .reelResume State.resume)

/-! ## Steps of background work -/

/-- The cursor advances by one, in the unit and in the conform record (R47). -/
def State.advanceCursor (op : Operation) (s : State) : State :=
  let s := s.modReel op.target fun r => { r with conform := r.conform.map fun c => { c with cursor := op.cursor + 1 } }
  { s with cfu := some { op with cursor := op.cursor + 1 } }

/-- The end of an operation at its target reel: OPEN, no conform record, header recomputed, operation none,
CONFORM_DONE, and the pointer to be re-found where the reel is the play reel (R51, R55). -/
def State.endConform (op : Operation) (s : State) : State :=
  let s := s.modReel op.target fun r => Reel.recompute { r with state := .opened, conform := none }
  State.raise (.conformDone op.target op.op) (State.markIfPlay op.target { s with cfu := none })

/-- A frame number moved by a delta. -/
def moveFrame (n : Nat) (delta : Int) : Nat := ((n : Int) + delta).toNat

/-- The in-use values of a cue with both frames moved by a delta. -/
def CueVals.moved (delta : Int) (v : CueVals) : CueVals :=
  { v with inPt := moveFrame v.inPt delta, outPt := moveFrame v.outPt delta }

/-- A cue as a shift step leaves it (R50). -/
def Cue.shifted (delta : Int) (c : Cue) : Cue :=
  { c with vals := c.vals.moved delta, conformPending := false, waited := false }

/-- A shift step on the cue at the cursor, and the end of the shift after the last position (R50, R51). -/
def State.shiftAt (op : Operation) (slot : Nat) (s : State) : State :=
  let t := (s.modCue op.target slot (Cue.shifted op.delta)).advanceCursor op
  if op.cursor + 1 = (s.reel op.target).order.length then t.endConform op else t

/-- SHIFT_STEP: one step of the shift in hand; without one there is no step to take (R50). -/
def execShiftStep (s : State) : Host.Outcome State Fault Refusal :=
  .next (
    match s.cfu with
    | some op =>
      match op.op, (s.reel op.target).order[op.cursor]? with
      | .shift, some slot => s.shiftAt op slot
      | .shift, none => s
      | .copy _, _ => s
    | none => s)

/-- A copy step: a new READY record in the lowest free slot of the destination (R54), and the end of the copy
after the last position of the source (R55). -/
def State.copyAt (op : Operation) (source : Fin 8) (c : Cue) (slot : Nat) (s : State) : State :=
  let t := s.modReel op.target (Reel.create slot (newCue c.loop (c.vals.moved op.delta)))
  let t := (t.markIfPlay op.target).advanceCursor op
  if op.cursor + 1 = (s.reel source).order.length then
    (t.modReel source fun r => { r with state := .opened }).endConform op
  else t

/-- COPY_STEP: one step of the copy in hand; without one there is no step to take (R54). -/
def execCopyStep (s : State) : Host.Outcome State Fault Refusal :=
  .next (
    match s.cfu with
    | some op =>
      match op.op with
      | .copy source =>
        match ((s.reel source).order[op.cursor]?).bind (s.reel source).cue, (s.reel op.target).freeSlot with
        | some c, some slot => s.copyAt op source c slot
        | _, _ => s
      | .shift => s
    | none => s)

end Sys2Proof.Machine
end

