-- ==== Sys2Proof/Machine/CountInUnit.lean ====
section
/-! DEFINITION. The Count-In Unit (Sections 6.1 and 6.2): beat states, beep gates, the arbiter of TONE and the tone
generator. -/

namespace Sys2Proof.Machine

/-- The current beat at a tick: the highest j from 1 to n with B_j × 80 ≤ T, none from the in-point on
(R111). -/
def CountIn.currentBeat (c : CountIn) (t : Nat) : Option Nat :=
  if c.inPt * Config.ticksPerFrame ≤ t then none
  else [4, 3, 2, 1].find? fun j => decide (j ≤ c.beeps) && decide (c.beatFrame j * 80 ≤ (t : Int))

/-- Whether beat j is delivered on a pass with a start frame (R109). -/
def CountIn.delivered (c : CountIn) (start j : Nat) : Bool :=
  decide (0 ≤ c.beatFrame j) && decide ((start : Int) ≤ c.beatFrame j)

/-- Whether the gate is open at a tick, with the current beat found (R111). -/
def CountIn.gateOpen (c : CountIn) (start t : Nat) : Option Nat → Bool
  | some j => c.delivered start j && decide ((t : Int) < c.beatFrame j * 80 + c.onTime)
  | none => false

/-- A beat state found afresh against a tick (R111); one not in use is left as it is. -/
def Beat.find (t : Nat) (b : Beat) : Beat :=
  match b.start, b.cue with
  | some start, some c =>
    { b with current := c.currentBeat t, gate := c.gateOpen start t (c.currentBeat t) }
  | _, _ => b

/-- A beat state at a reverse tick: gate closed, no current beat (R112). -/
def Beat.shut (b : Beat) : Beat := { b with current := none, gate := false }

/-- A change of every beat state. -/
def mapBeats (f : Beat → Beat) (v : Vector Beat 4) : Vector Beat 4 := #v[f v[0], f v[1], f v[2], f v[3]]

/-- The lowest-numbered context whose gate is open (R115). -/
def lowestOpen (v : Vector Beat 4) : Option (Fin 4) := allCtx.find? fun k => v[k].gate

/-- The tone of the cue whose count-in a beat state holds. -/
def Beat.divider (b : Beat) : Nat := b.cue.elim 0 fun c => c.tone

/-- The generator takes its sounding context (R115, R116): from none it goes high, from another it keeps its level,
to none it goes low; the divider and the count follow. -/
def ToneGen.sound (v : Vector Beat 4) (g : ToneGen) : ToneGen :=
  match g.sounding, lowestOpen v with
  | none, none => g
  | some _, none => { g with level := false, sounding := none, count := none }
  | none, some k => { level := true, sounding := some k, divider := v[k].divider, count := some 0 }
  | some j, some k => if j = k then g else { g with sounding := some k, divider := v[k].divider, count := some 0 }

/-- Beat states changed, and the sounding context found in the same event (R115). -/
def Ciu.withBeats (v : Vector Beat 4) (c : Ciu) : Ciu := { c with beats := v, tone := c.tone.sound v }

/-- The Count-In Unit takes a tick (R111, R112). -/
def Ciu.tick (t : Nat) (dir : Dir) (c : Ciu) : Ciu :=
  let f : Beat → Beat :=
    match dir with
    | .forward => Beat.find t
    | .reverse => Beat.shut
  Ciu.withBeats (mapBeats f c.beats) { c with last := some (t, dir) }

/-- CIU_TICK (R111, R112). -/
def execCiuTick (t : Nat) (dir : Dir) (s : State) : Host.Outcome State Fault Refusal :=
  let s := s.taken (.ciuTick t dir)
  .next { s with ciu := s.ciu.tick t dir }

/-- The count-in values of the cue a context serves, read through the context (R84, R110). -/
def State.countInOf (s : State) (k : Fin 4) : Option CountIn :=
  (s.ctx k).bind fun c => (s.cue c.reel c.slot).map fun cue => cue.vals.countIn

/-- A beat state set in use by an entry hand-over, the gate found against the last tick (R110, R111). Where that tick was
reverse, R112 keeps gates closed until the next forward tick, and R111 has the hand-over find its gate against T_last
without a word on the direction: the model finds it against T_last, whatever its direction (log entry 33). -/
def Beat.enter (start : Nat) (cue : Option CountIn) (last : Option (Nat × Dir)) : Beat :=
  let b : Beat := { start := some start, cue := cue, current := none, gate := false }
  match last with
  | some (t, _) => b.find t
  | none => b

/-- ENTRY_HANDOVER (R110). -/
def execEntryHandover (k : Fin 4) (start : Nat) (s : State) : Host.Outcome State Fault Refusal :=
  let s := s.taken (.entryHandover k start)
  .next { s with ciu := s.ciu.withBeats (s.ciu.beats.set k (Beat.enter start (s.countInOf k) s.ciu.last)) }

/-- FREE_HANDOVER (R110). -/
def execFreeHandover (k : Fin 4) (s : State) : Host.Outcome State Fault Refusal :=
  let s := s.taken (.freeHandover k)
  .next { s with ciu := s.ciu.withBeats (s.ciu.beats.set k Beat.reset) }

/-- The end of a half wave: TONE changes level and the count starts again from 0 (R114). -/
def ToneGen.halfWave (g : ToneGen) : ToneGen :=
  match g.sounding with
  | some _ => { g with level := !g.level, count := some 0 }
  | none => g

/-- TONE_HALF_WAVE: the reference count reaches 1 + D; with nothing sounding the count is stopped (R114). -/
def execToneHalfWave (s : State) : Host.Outcome State Fault Refusal :=
  .next { s with ciu := { s.ciu with tone := s.ciu.tone.halfWave } }

/-- The reference periods of each half wave: 1 + D (R114). -/
def ToneGen.halfPeriods (g : ToneGen) : Nat := 1 + g.divider

end Sys2Proof.Machine
end

