-- ==== Sys2Proof/Machine/CueEdit.lean ====
section
/-! DEFINITION. The commands that edit the live cue list: CUE_WRITE, CUE_AMEND, CUE_RETIRE, CUE_ARM, CUE_DISARM and
CUE_PROTECT (Chapter 2). Each makes its checks in the order its rule gives. -/

namespace Sys2Proof.Machine

/-- The first two checks of a cue command: loop number and coded values, then the state of the edit reel
(R25, R26). -/
def cueChecks (cmd : CueCommand) (fieldsOk : Bool) (f : State → State × Reply) (s : State) : State × Reply :=
  if fieldsOk then
    match reelRefusal cmd s.editReel.state with
    | some r => refuse r s
    | none => f s
  else refuse .badField s

/-- DONE, or ADJUSTED where a value was clamped (R25). -/
def doneOr (clamped : Bool) : Reply := { result := if clamped then .adjusted else .done }

/-! ## CUE_WRITE -/

/-- A reel as a CUE_WRITE leaves it: the cue in its slot and in the order list, the header recomputed, the
reel OPEN (R31). -/
def Reel.write (slot : Nat) (c : Cue) (r : Reel) : Reel :=
  { Reel.recompute (Reel.create slot c r) with state := .opened }

/-- Checks 5 and 6 of CUE_WRITE and its effect (R30, R31). -/
def State.writeCue (loop : Nat) (v : CueVals) (clamped : Bool) (s : State) : State × Reply :=
  if (s.editReel.slotOf loop).isSome then refuse .duplicateLoop s
  else if Config.slotsPerReel ≤ s.editReel.count then refuse .reelFull s
  else
    match s.editReel.freeSlot with
    | none => refuse .reelFull s
    | some slot =>
      ((s.modReel s.cst.editReel (Reel.write slot (newCue loop v))).markIfPlay s.cst.editReel, doneOr clamped)

/-- Checks 3 to 6 of CUE_WRITE and its effect (R30, R31). -/
def State.writeChecked (loop : Nat) (f : CueFields) (mode : Mode) (s : State) : State × Reply :=
  match f.inPt.frame s.pos.rate, f.outPt.frame s.pos.rate with
  | some i, some o =>
    if i < o then s.writeCue loop (storedVals f i o mode) (writeClamped f) else refuse .badField s
  | _, _ => refuse .badTimecode s

/-- CUE_WRITE (R30, R31). -/
def execCueWrite (loop : BitVec 16) (f : CueFields) (s : State) : Host.Outcome State Fault Refusal :=
  .next (s.owner (.cueWrite loop f) fun s =>
    match modeOf f.mode with
    | none => refuse .badField s
    | some mode => cueChecks .edit (loopOk loop) (State.writeChecked loop.toNat f mode) s)

/-! ## CUE_AMEND -/

/-- The fields pending on a cue. -/
def Cue.pendingFields (c : Cue) : EditVals := c.pending.elim EditVals.none fun p => p.fields

/-- The effect of an amend that passed its checks: held on a PASSING cue (R36), applied at once on any
other (R35). -/
def State.amendCue (slot : Nat) (c : Cue) (e : EditVals) (clamped : Bool) (s : State) : State × Reply :=
  if c.state.isPassing then
    (s.modCue s.cst.editReel slot fun x =>
      { x with pending := some { fields := e.merge c.pendingFields, disarm := c.disarmed } }, { result := .pending })
  else (s.applyVals s.cst.editReel slot c (e.over c.vals), doneOr clamped)

/-- Checks 5 to 7 of CUE_AMEND and its effect (R32 to R36). `run` is what the cue will run on once every
accepted change has been applied. -/
def State.amendFound (f : AmendFields) (given : EditVals) (slot : Nat) (c : Cue) (s : State) : State × Reply :=
  let run := (given.merge c.pendingFields).over c.vals
  if c.protect then refuse .protectedCue s
  else if run.outPt ≤ run.inPt then refuse .badField s
  else if c.state.kind = some .record ∧ run.lines = 0 then refuse .noLines s
  else s.amendCue slot c (given.limited run) (amendClamped f run)

/-- Checks 3 and 4 of CUE_AMEND (R32). -/
def State.amendChecked (loop : BitVec 16) (f : AmendFields) (mode : Option Mode) (s : State) : State × Reply :=
  match optFrame s.pos.rate f.inPt, optFrame s.pos.rate f.outPt with
  | some i, some o => withCue loop (State.amendFound f (amendGiven f i o mode)) s
  | _, _ => refuse .badTimecode s

/-- CUE_AMEND (R32). -/
def execCueAmend (loop : BitVec 16) (reserved : BitVec 4) (f : AmendFields) (s : State) :
    Host.Outcome State Fault Refusal :=
  .next (s.owner (.cueAmend loop reserved f) fun s =>
    match optMode f.mode with
    | none => refuse .badField s
    | some mode =>
      cueChecks .edit (loopOk loop && decide (reserved = 0) && amendNames f) (State.amendChecked loop f mode) s)

/-! ## CUE_RETIRE -/

/-- The effect of a retirement: the pass of a PASSING cue is aborted first, then the cue is removed (R40,
R41). -/
def State.retireCue (slot : Nat) (c : Cue) (s : State) : State :=
  let reel := s.cst.editReel
  let t :=
    if c.state.isPassing then
      match s.serving reel slot with
      | some k => s.retireCtx k
      | none => s
    else s
  State.markIfPlay reel (t.modReel reel (Reel.remove slot))

/-- CUE_RETIRE (R39). -/
def execCueRetire (loop : BitVec 16) (s : State) : Host.Outcome State Fault Refusal :=
  .next (s.owner (.cueRetire loop) fun s =>
    cueChecks .edit (loopOk loop) (withCue loop fun slot c s =>
      if c.protect then refuse .protectedCue s else (s.retireCue slot c, { result := .done })) s)

/-! ## Arming, disarming, protecting -/

/-- Checks 5 to 7 of CUE_ARM, made for RECORD alone (R42). -/
def recordRefusal (c : Cue) : Option Result :=
  if c.vals.lines = 0 then some .noLines
  else if 100 ≤ c.nextTake then some .takeLimit
  else if c.allCircled then some .takesFull
  else none

/-- Checks 4 to 7 of CUE_ARM and its effect (R42, R43). -/
def State.armFound (kind : ArmKind) (slot : Nat) (c : Cue) (s : State) : State × Reply :=
  if c.state.isPassing then refuse .passActive s
  else
    match (if kind = .record then recordRefusal c else none) with
    | some r => refuse r s
    | none => (s.modCue s.cst.editReel slot fun x => { x with state := .armed kind }, { result := .done })

/-- CUE_ARM (R42, R43). -/
def execCueArm (loop : BitVec 16) (kind : Byte) (s : State) : Host.Outcome State Fault Refusal :=
  .next (s.owner (.cueArm loop kind) fun s =>
    match armKindOf kind with
    | none => refuse .badField s
    | some k => cueChecks .arming (loopOk loop) (withCue loop (State.armFound k)) s)

/-- The effect of CUE_DISARM by the state of the cue (R44). -/
def State.disarmFound (slot : Nat) (c : Cue) (s : State) : State × Reply :=
  let edit := s.modCue s.cst.editReel slot
  match c.state with
  | .ready => (s, { result := .done })
  | .armed _ => (edit fun x => { x with state := .ready, waited := false }, { result := .done })
  | .done => (edit fun x => { x with state := .ready }, { result := .done })
  | .passing _ =>
    (edit fun x => { x with pending := some { fields := c.pendingFields, disarm := true } }, { result := .pending })

/-- CUE_DISARM (R44). -/
def execCueDisarm (loop : BitVec 16) (s : State) : Host.Outcome State Fault Refusal :=
  .next (s.owner (.cueDisarm loop) fun s => cueChecks .arming (loopOk loop) (withCue loop State.disarmFound) s)

/-- CUE_PROTECT (R45). -/
def execCueProtect (loop : BitVec 16) (value : Byte) (s : State) : Host.Outcome State Fault Refusal :=
  .next (s.owner (.cueProtect loop value) fun s =>
    match onOffOf value with
    | none => refuse .badField s
    | some on =>
      cueChecks .protect (loopOk loop) (withCue loop fun slot _ s =>
        (s.modCue s.cst.editReel slot fun x => { x with protect := on }, { result := .done })) s)

end Sys2Proof.Machine
end

