-- ==== Sys2Proof/Machine/Resets.lean ====
section
/-! DEFINITION. The two resets (Section 4 of the introduction; R23, R24, R58, R82, R108, R117, R128, R147, R163,
R164, R178) and the end of a held RESET. -/

namespace Sys2Proof.Machine

/-- The unit state a reset takes from the level of GUARD (R147). -/
def unitAtReset (guardHigh : Bool) : UnitState := if guardHigh then .normal else .guarded

/-- A cue record at a warm reset (R24, R164): the pending edit is applied as at an abort, PASSING is settled,
OPEN takes become ABORTED with the lines held, the waited flag is cleared. -/
def Reel.warmCue (held : LineSet) (slot : Nat) (r : Reel) : Reel :=
  match r.cue slot with
  | none => r
  | some c =>
    (r.applyVals slot c c.settledVals).modCue slot fun x =>
      { x with pending := none, waited := false, takes := x.takes.map (Take.abort held),
               state := settleState false c.disarmed c.settledVals.mode x.state }

/-- Every cue record of a reel at a warm reset. -/
def Reel.warm (held : Nat → LineSet) (r : Reel) : Reel :=
  (r.cues.map Prod.fst).foldl (fun r slot => r.warmCue (held slot) slot) r

/-- The held set of the context that serves a cue, empty without one (R153). -/
def State.heldFor (s : State) (r : Fin 8) (slot : Nat) : LineSet :=
  ((s.serving r slot).bind s.ctx).elim 0 fun c => c.held

/-- The target of an operation in hand becomes PARTIAL and keeps its conform record (R58). -/
def leavePartial (cfu : Option Operation) (i : Fin 8) (r : Reel) : Reel :=
  match cfu with
  | some op => if op.target = i then { r with state := .partly } else r
  | none => r

/-- A reel of the store at a warm reset. -/
def State.warmReel (s : State) (i : Fin 8) : Reel :=
  leavePartial s.cfu i ((s.reel i).warm (s.heldFor i))

/-- The Cue Store at a warm reset (R24). -/
def State.warmStore (s : State) : CueStore :=
  { s.cst with
    reels := #v[s.warmReel 0, s.warmReel 1, s.warmReel 2, s.warmReel 3, s.warmReel 4, s.warmReel 5,
                s.warmReel 6, s.warmReel 7],
    pendingPlay := none }

/-- A punch line at a warm reset: out and without owner, mode and polarity kept (R147). -/
def Line.out (l : Line) : Line := { l with owner := .nobody, isIn := false }

/-- The Punch Unit at a warm reset (R147). -/
def warmPunch (guardHigh : Bool) (p : Pch) : Pch :=
  { Pch.reset with
    lines := #v[p.lines[0].out, p.lines[1].out, p.lines[2].out, p.lines[3].out, p.lines[4].out,
                p.lines[5].out, p.lines[6].out, p.lines[7].out],
    unit := unitAtReset guardHigh }

/-- A warm reset of the whole part: each block takes the values its chapter gives. Events raised and not
taken are lost with the blocks they were raised for (R164, log entry 7). -/
def State.warm (s : State) : State :=
  { s with
    lnk := Link.reset,
    pos := { Pos.reset with rate := s.pos.rate, limit := s.pos.limit },
    cst := s.warmStore,
    cfu := none,
    psc := Psc.reset,
    ciu := Ciu.reset,
    ovl := { Ovl.reset with flash := s.ovl.flash },
    pch := warmPunch s.board.guardHigh s.pch,
    vgt := { Vgt.reset with qualify := s.vgt.qualify, allowance := s.vgt.allowance, level := s.vgt.level },
    raised := [] }

/-- COLD_RESET: power-on (R23 and the cold values of every chapter). The waiting commands and the levels of
the input lines are not the part's and stay. -/
def execColdReset (s : State) : Host.Outcome State Fault Refusal :=
  .next { State.reset with
    pending := s.pending, board := s.board, ties := s.ties,
    pch := { Pch.reset with unit := unitAtReset s.board.guardHigh },
    vgt := { Vgt.reset with level := s.vgt.level } }

/-- WARM_RESET: a low level on RESET, which is then held until RESET_RELEASE, or the end of the RESTART
answer (R24, R177, R178). -/
def execWarmReset (byLine : Bool) (s : State) : Host.Outcome State Fault Refusal :=
  .next { s.warm with board := { s.board with resetLow := s.board.resetLow || byLine } }

/-- RESET_RELEASE: RESET rises after being held low, and the link starts with its reset values (R178). -/
def execResetRelease (s : State) : Host.Outcome State Fault Refusal :=
  .next (if s.board.resetLow then { s with lnk := Link.reset, board := { s.board with resetLow := false } } else s)

end Sys2Proof.Machine
end

