-- ==== Sys2Proof/Machine/LinkUnit.lean ====
section
/-! DEFINITION. The Command Link (Chapter 9): receiving, judging and dispatching messages, the end of a message
on LINK TX, STATUS and RESTART. -/

namespace Sys2Proof.Machine

/-! ## Receiving (Section 9.1) -/

/-- An answer of the link's own is made in the event that completes the message (R168, R171). -/
def State.linkAnswer (r : Result) (kind : Byte) (s : State) : State :=
  State.transmit { s with lnk := s.lnk.place { result := r, kind := kind } }

/-- A message that passes the link's judging becomes held and is handed to its owner, which takes it as an event of its
own (R170). -/
def State.dispatch (body : List Byte) (s : State) : State := { s with lnk := s.lnk.hold body }

/-- A complete message is judged: the first test that fails decides (R168). -/
def State.judge (len : Byte) (body : List Byte) (check : Byte) (s : State) : State :=
  let kind := body.headD 0
  if len + byteSum body + check ≠ 0 then s.linkAnswer .linkError 0
  else if s.lnk.held.isSome then s.linkAnswer .overrun kind
  else if !isCommandKind kind then s.linkAnswer .unknownKind kind
  else if !lengthAllowed body then s.linkAnswer .badLength kind
  else s.dispatch body

/-- The receiver takes a receive state. -/
def State.setRx (rx : Rx) (s : State) : State := { s with lnk := { s.lnk with rx := rx } }

/-- RX_BYTE: a byte completes on LINK RX (R165, R166, R168). While RESET is held low it is discarded
(R178). -/
def execRxByte (byte : Byte) (framingError : Bool) (s : State) : Host.Outcome State Fault Refusal :=
  .next (
    if s.board.resetLow then s
    else if framingError then s.setRx .hunting
    else match s.lnk.rx with
      | .hunting => if byte = 0xD5 then s.setRx .length else s
      | .length => if byte = 0 ∨ 64 < byte.toNat then s.setRx .hunting else s.setRx (.body byte [])
      | .body len got =>
        if got.length + 1 < len.toNat then s.setRx (.body len (got ++ [byte]))
        else s.setRx (.check len (got ++ [byte]))
      | .check len got => (s.setRx .hunting).judge len got byte)

/-- GAP_TIMER_EXPIRY: the message in progress is dropped; in HUNTING the timer does not run (R167). -/
def execGapTimerExpiry (s : State) : Host.Outcome State Fault Refusal := .next (s.setRx .hunting)

/-! ## The transmit line (Section 9.4) -/

/-- The message on LINK TX has ended; with an owner's answer the held command is released (R169). -/
def Link.ended (l : Link) : Link :=
  match l.wire with
  | some (.answer _) => { l with wire := none, held := none }
  | some (.linkAnswer _) => { l with wire := none }
  | some (.notice _) => { l with wire := none }
  | none => l

/-- Whether the message on LINK TX is the answer to RESTART (R177). -/
def Link.endsRestart (l : Link) : Bool :=
  match l.wire with
  | some (.answer a) => a.kind == 0x02
  | some (.linkAnswer _) | some (.notice _) | none => false

/-- TX_MESSAGE_END: the last byte of the message on LINK TX has been sent, and the transmitter chooses
(R169, R175). After the answer to RESTART a warm reset follows (R177). -/
def execTxMessageEnd (s : State) : Host.Outcome State Fault Refusal :=
  .next (
    if s.lnk.endsRestart then s.warm
    else State.transmit { s with lnk := s.lnk.ended })

/-! ## Commands of the link (Section 9.5) -/

/-- What STATUS answers (R176). -/
def State.statusInfo (s : State) : StatusInfo :=
  { position := s.pos.state, punchUnit := s.pch.unit, guardHigh := s.board.guardHigh, operation := s.cfu,
    contexts := s.activeSet, overrun := s.lnk.overrun }

/-- STATUS: the overrun flag is cleared after its value is in the answer (R174, R176). -/
def execStatus (s : State) : Host.Outcome State Fault Refusal :=
  .next (s.owner .status fun s =>
    ({ s with lnk := { s.lnk with overrun := false } }, { result := .done, data := .status s.statusInfo }))

/-- RESTART: answered DONE; the warm reset follows the end of the answer (R177). -/
def execRestart (s : State) : Host.Outcome State Fault Refusal :=
  .next (s.owner .restart fun s => (s, { result := .done }))

end Sys2Proof.Machine
end

