-- ==== Sys2Proof/Machine/Overlay.lean ====
section
/-! DEFINITION. The Overlay Composer (Section 6.3): lanes, descriptors, the quiet mark, the overlay port and
SET_FLASH. -/

namespace Sys2Proof.Machine

/-- The streamer column of a lane on frame `n` (R121). TAIL carries none (R120). -/
def streamerColumn (v : CueVals) (phase : Phase) (n : Nat) : Option Nat :=
  if phase = .lead ∧ 0 < v.streamer ∧ v.inPt ≤ n + v.streamer ∧ n < v.inPt then
    some (960 * (n + v.streamer - v.inPt) / v.streamer)
  else none

/-- The count digit of a lane on frame `n` (R122): n − j + 1 for the beat interval that holds the frame. -/
def countDigit (v : CueVals) (phase : Phase) (n : Nat) : Option Nat :=
  if phase = .lead ∧ n < v.inPt then
    ([4, 3, 2, 1].find? fun j => decide (j ≤ v.beeps) && decide (v.countIn.beatFrame j ≤ (n : Int))).map
      fun j => v.beeps - j + 1
  else none

/-- Whether a lane carries the flash on frame `n` (R124). -/
def flashOn (v : CueVals) (phase : Phase) (flash n : Nat) : Bool :=
  decide (phase = .line) && decide (v.inPt ≤ n) && decide (n < v.inPt + flash) && decide (n < v.outPt)

/-- The lane of a context in the descriptor of frame `n` (R120). -/
def laneOf (k : Fin 4) (phase : Phase) (v : CueVals) (flash n : Nat) : Lane :=
  { ctx := k, char := v.char, colour := v.colour, phase := phase, column := streamerColumn v phase n,
    digit := countDigit v phase n, flash := flashOn v phase flash n, bar := decide (phase = .line) }

/-- The lane of a reported context; one that is no longer ACTIVE has none (R84, log entry 9). -/
def State.laneFor (s : State) (n : Nat) (r : Fin 4 × Phase) : Option Lane :=
  (s.ctx r.1).bind fun c => (s.cue c.reel c.slot).map fun cue => laneOf r.1 r.2 cue.vals s.ovl.flash n

/-- The descriptor composed from a lane report (R120). -/
def State.compose (s : State) (r : LaneReport) : Descriptor :=
  { frame := r.n, state := r.state, lanes := r.lanes.filterMap (s.laneFor r.n) }

/-- A descriptor is handed to the overlay port: sent at once where the port is idle, otherwise it waits in place of
any that waited (R126). -/
def Ovl.hand (d : Descriptor) (o : Ovl) : Ovl :=
  match o.wire with
  | none => { o with wire := some d }
  | some _ => { o with waiting := some d }

/-- A descriptor is composed for a lane report, unless the quiet mark is set (R119). -/
def State.draw (r : LaneReport) (s : State) : State :=
  if s.ovl.quiet then s else { s with ovl := s.ovl.hand (s.compose r) }

/-- LANE_REPORT, taken after the events for the Overlay Composer that were raised before it, so that the state event of a
lock comes before the report of its edge (R119). -/
def execLaneReport (r : LaneReport) (s : State) : Host.Outcome State Fault Refusal :=
  .next (s.takeInTurn (.laneReport r) (State.draw r))

/-- The Overlay Composer takes a state event (R119). `held` is the frame number the position holds. -/
def Ovl.stateEvent (held : Nat) (o : Ovl) : PosState → Ovl
  | .locked => { o with quiet := false }
  | .freewheel => o
  | .stopped => Ovl.hand { frame := held, state := .stopped, lanes := [] } { o with quiet := true }
  | .unknown => Ovl.hand { frame := 0, state := .unknown, lanes := [] } { o with quiet := true }

/-- OVL_STATE_EVENT, taken after the events for the Overlay Composer that were raised before it; the state event of UNKNOWN
may be taken before lane reports (R119). -/
def execOvlStateEvent (state : PosState) (dir : Dir) (s : State) : Host.Outcome State Fault Refusal :=
  .next (s.takeInTurn (.ovlStateEvent state dir) fun s => { s with ovl := s.ovl.stateEvent s.pos.n state })

/-- DESCRIPTOR_SENT: the waiting descriptor, if any, is sent next (R126). -/
def execDescriptorSent (s : State) : Host.Outcome State Fault Refusal :=
  .next (
    match s.ovl.wire with
    | some _ => { s with ovl := { s.ovl with wire := s.ovl.waiting, waiting := none } }
    | none => s)

/-- A flash length brought into 1 to 3 (R125). -/
def clampFlash (v : Nat) : Nat := if v = 0 then 1 else min v 3

/-- SET_FLASH (R125). -/
def execSetFlash (length : Byte) (s : State) : Host.Outcome State Fault Refusal :=
  .next (s.owner (.setFlash length) fun s =>
    ({ s with ovl := { s.ovl with flash := clampFlash length.toNat } },
     { result := if clampFlash length.toNat = length.toNat then .done else .adjusted }))

end Sys2Proof.Machine
end

