-- ==== Sys2Proof/Machine/Position.lean ====
section
/-! DEFINITION. The Position Reader (Chapter 4): reading and judging LTC frames, the position states, what the
reader raises, and its commands. -/

namespace Sys2Proof.Machine

/-! ## Reading the code (Section 4.1, R187) -/

/-- The value of a cell by its forward number: a frame read in reverse presents cells 79 down to 0
(R187). -/
def cellAt (f : LtcFrame) (k : Nat) : Bool :=
  match f.dir with
  | .forward => f.cells.getLsbD k
  | .reverse => f.cells.getLsbD (79 - k)

/-- The number that `w` cells from cell `k` on form, the lowest-numbered cell least significant (R187). -/
def cellNumber (f : LtcFrame) (k : Nat) : Nat → Nat
  | 0 => 0
  | w + 1 => cellNumber f k w + (if cellAt f (k + w) then 2 ^ w else 0)

/-- The sync word bounds the frame: cells 64 to 79 hold 0, 0, twelve 1 cells, 0, 1 (Table 10-10). -/
def syncPresent (f : LtcFrame) : Bool := cellNumber f 64 16 == 0xBFFC

/-- The drop-frame flag as read: cell 10 (Table 10-10). -/
def dropFlag (f : LtcFrame) : Bool := cellAt f 10

/-- The eight decimal digits of the label, each units digit before its tens digit (Table 10-10). -/
def digitsOf (f : LtcFrame) : List Nat :=
  [cellNumber f 0 4, cellNumber f 8 2, cellNumber f 16 4, cellNumber f 24 3, cellNumber f 32 4,
   cellNumber f 40 3, cellNumber f 48 4, cellNumber f 56 2]

/-- The label a frame carries. -/
def labelRead (f : LtcFrame) : Label :=
  { hh := BitVec.ofNat 8 (10 * cellNumber f 56 2 + cellNumber f 48 4),
    mm := BitVec.ofNat 8 (10 * cellNumber f 40 3 + cellNumber f 32 4),
    ss := BitVec.ofNat 8 (10 * cellNumber f 24 3 + cellNumber f 16 4),
    ff := BitVec.ofNat 8 (10 * cellNumber f 8 2 + cellNumber f 0 4) }

/-- The drop-frame flag agrees with the configured rate (R63). -/
def agrees (rate : Rate) (f : LtcFrame) : Bool := dropFlag f == rate.isDrop

/-- The cell speed lies in the decode window of 250 to 4000 permille (R61, R62). -/
def inWindow (rate : Rate) (f : LtcFrame) : Bool :=
  decide (250 ≤ speedOf rate f.duration) && decide (speedOf rate f.duration ≤ 4000)

/-- The four tests of a good frame (R62). -/
def goodFrame (rate : Rate) (f : LtcFrame) : Bool :=
  (digitsOf f).all (fun d => decide (d ≤ 9)) && (labelRead f).valid rate && agrees rate f && inWindow rate f

/-! ## What the reader raises (Section 4.5) -/

/-- The tick of the present position is raised for the Count-In Unit and the Voice Gate (R78). -/
def State.raiseTick (s : State) : State :=
  s.post [.ciuTick s.pos.tick s.pos.dir, .vgtTick s.pos.tick s.pos.dir]

/-- The frame edge of the present position (R77). -/
def Pos.edge (p : Pos) (jump resume : Bool) : FrameEdge :=
  { n := p.n, dir := p.dir, speed := p.speed, inSpeed := p.inSpeed, jump := jump, resume := resume, state := p.state }

/-- A frame edge is raised for the Pass Scheduler and the Punch Unit, and the tick of its T follows it
(R77, R78). -/
def State.raiseEdge (jump resume : Bool) (s : State) : State :=
  State.raiseTick (s.post [.pscFrameEdge (s.pos.edge jump resume), .pchFrameEdge (s.pos.edge jump resume)])

/-- A state event is raised for four blocks, and as a POSITION notice (R79). -/
def State.raiseState (s : State) : State :=
  State.raise (.position s.pos.state s.pos.dir)
    (s.post [.pscStateEvent s.pos.state s.pos.dir, .ovlStateEvent s.pos.state s.pos.dir,
             .pchStateEvent s.pos.state s.pos.dir, .vgtStateEvent s.pos.state s.pos.dir])

/-- The position becomes `p`, then the state event is raised. -/
def State.enterPos (p : Pos) (s : State) : State := State.raiseState { s with pos := p }

/-- The position becomes `p`, then a frame edge is raised. -/
def State.edgePos (p : Pos) (jump resume : Bool) (s : State) : State := State.raiseEdge jump resume { s with pos := p }

/-! ## Position states (Section 4.4) -/

/-- The position at the first cell of frame `n` in a direction. -/
def Pos.atFrame (p : Pos) (n : Nat) (dir : Dir) : Pos := { p with n := n, b := firstCell dir, dir := dir }

/-- The held values of STOPPED (Table 4-4): N and direction held, b = 0, no period. -/
def Pos.stop (p : Pos) : Pos := { p with state := .stopped, b := 0, period := none, mark := false, count := 0 }

/-- A good frame locks the position from UNKNOWN or STOPPED (R71). -/
def State.lock (n : Nat) (f : LtcFrame) (s : State) : State :=
  let p := { s.pos.atFrame n f.dir with state := .locked, period := some f.duration, mark := false, count := 0 }
  (s.enterPos p).edgePos p false true

/-- A good frame in LOCKED: expected, or a jump (R72). The period is measured from the completion before
(R68) and the measured mark is set (R69). -/
def State.continueLocked (n : Nat) (f : LtcFrame) (s : State) : State :=
  let expected := n == nextFrame s.pos.rate s.pos.n f.dir
  s.edgePos { s.pos.atFrame n f.dir with period := some f.gap, mark := true } (!expected) false

/-- A missing or bad frame in LOCKED: one freewheel advance, or a stop where the limit is 0 (R73). -/
def State.missing (s : State) : State :=
  if s.pos.limit = 0 then s.enterPos s.pos.stop
  else
    let p := { s.pos.atFrame (nextFrame s.pos.rate s.pos.n s.pos.dir) s.pos.dir with state := .freewheel, count := 1 }
    (s.enterPos p).edgePos p false false

/-- A good frame in FREEWHEEL ends the freewheel (R75). The state event and the POSITION notice, raised first, carry the
direction of the good frame, which is the one LOCKED holds by Table 4-4: R75 leaves the direction they carry open, and
this is the model's choice (log entry 30). -/
def State.endFreewheel (n : Nat) (f : LtcFrame) (s : State) : State :=
  let kept := { s.pos with state := PosState.locked, count := 0 }
  let fresh := kept.atFrame n f.dir
  if n = s.pos.n ∧ f.dir = s.pos.dir then s.enterPos kept
  else (s.enterPos fresh).edgePos fresh (n != nextFrame s.pos.rate s.pos.n f.dir) false

/-- The rate agreement of a completed frame (R63). -/
def State.testAgreement (f : LtcFrame) (s : State) : State :=
  if agrees s.pos.rate f then { s with pos := { s.pos with mismatch := false } }
  else if s.pos.mismatch then s
  else State.raise (.rateMismatch (dropFlag f)) { s with pos := { s.pos with mismatch := true } }

/-- A completed frame is taken by the position state (R62, R71, R72, R73, R75). -/
def State.takeFrame (f : LtcFrame) (s : State) : State :=
  let n := (labelRead f).number s.pos.rate
  match s.pos.state, goodFrame s.pos.rate f with
  | .unknown, true => s.lock n f
  | .stopped, true => s.lock n f
  | .locked, true => s.continueLocked n f
  | .locked, false => s.missing
  | .freewheel, true => s.endFreewheel n f
  | .unknown, false | .stopped, false | .freewheel, false => s

/-- LTC_FRAME: a frame's code is complete. A run of cells that no sync word bounds completes no frame
(R61). -/
def execLtcFrame (f : LtcFrame) (s : State) : Host.Outcome State Fault Refusal :=
  .next (if syncPresent f then (s.testAgreement f).takeFrame f else s)

/-- WATCH_TIMER_EXPIRY: the frame is missing; the timer runs in LOCKED alone (R73). -/
def execWatchTimerExpiry (s : State) : Host.Outcome State Fault Refusal :=
  .next (
    match s.pos.state with
    | .locked => s.missing
    | .unknown | .freewheel | .stopped => s)

/-- FREEWHEEL_TIMER_EXPIRY: the position advances one frame, or stops when the count has reached the limit;
the timer runs in FREEWHEEL alone (R74). -/
def execFreewheelTimerExpiry (s : State) : Host.Outcome State Fault Refusal :=
  .next (
    match s.pos.state with
    | .freewheel =>
      if s.pos.count < s.pos.limit then
        s.edgePos
          { s.pos.atFrame (nextFrame s.pos.rate s.pos.n s.pos.dir) s.pos.dir with count := s.pos.count + 1 } false false
      else s.enterPos s.pos.stop
    | .unknown | .locked | .stopped => s)

/-- The cell index one step in the direction of travel, until its last value in the frame (R78). -/
def nextCell (b : Nat) : Dir → Option Nat
  | .forward => if b < 79 then some (b + 1) else none
  | .reverse => if b = 0 then none else some (b - 1)

/-- POS_TICK: a cell is read in LOCKED, or a tick interval ends in FREEWHEEL (R78). -/
def execPosTick (s : State) : Host.Outcome State Fault Refusal :=
  .next (
    if isRunning s.pos.state then
      match nextCell s.pos.b s.pos.dir with
      | some b => State.raiseTick { s with pos := { s.pos with b := b } }
      | none => s
    else s)

/-! ## Commands of the reader -/

/-- Whether every reel is EMPTY (R64). -/
def State.allEmpty (s : State) : Bool := allReels.all fun r => decide ((s.reel r).state = .empty)

/-- The position a SET_RATE leaves: the new rate and the held values of UNKNOWN (R64). -/
def Pos.setRate (p : Pos) (rate : Rate) : Pos := { Pos.reset with rate := rate, limit := p.limit }

/-- SET_RATE (R64). -/
def execSetRate (code : Byte) (s : State) : Host.Outcome State Fault Refusal :=
  .next (s.owner (.setRate code) fun s =>
    match rateOf code with
    | none => refuse .badField s
    | some rate =>
      if !s.allEmpty then refuse .reelNotEmpty s
      else
        let p := s.pos.setRate rate
        (if s.pos.state = .unknown then { s with pos := p } else s.enterPos p, { result := .done }))

/-- SET_FREEWHEEL (R80). -/
def execSetFreewheel (limit : Byte) (s : State) : Host.Outcome State Fault Refusal :=
  .next (s.owner (.setFreewheel limit) fun s =>
    ({ s with pos := { s.pos with limit := min limit.toNat 30 } },
     { result := if limit.toNat ≤ 30 then .done else .adjusted }))

/-- What POSITION_READ answers (R81). -/
def Pos.info (p : Pos) : PositionInfo :=
  match p.state with
  | .unknown => { state := .unknown, dir := .forward, speed := 0, inSpeed := false, label := ⟨0, 0, 0, 0⟩, tick := 0 }
  | .locked => { state := .locked, dir := p.dir, speed := p.speed, inSpeed := p.inSpeed, label := labelOf p.rate p.n, tick := p.b }
  | .freewheel =>
    { state := .freewheel, dir := p.dir, speed := p.speed, inSpeed := p.inSpeed, label := labelOf p.rate p.n, tick := p.b }
  | .stopped => { state := .stopped, dir := p.dir, speed := 0, inSpeed := false, label := labelOf p.rate p.n, tick := 0 }

/-- POSITION_READ (R81). -/
def execPositionRead (s : State) : Host.Outcome State Fault Refusal :=
  .next (s.owner .positionRead fun s => (s, { result := .done, data := .position s.pos.info }))

end Sys2Proof.Machine
end

