-- ==== Sys2Proof/Machine/Punch.lean ====
section
/-! DEFINITION. The Punch Unit (Chapter 7): the line records and their outputs, the staging list, transfers, manual
punching and the guard. -/

namespace Sys2Proof.Machine

/-! ## Lines (Section 7.1) -/

/-- A change of every line record. -/
def mapLines (f : Fin 8 → Line → Line) (v : Vector Line 8) : Vector Line 8 :=
  #v[f 0 v[0], f 1 v[1], f 2 v[2], f 3 v[3], f 4 v[4], f 5 v[5], f 6 v[6], f 7 v[7]]

/-- The set of lines whose records satisfy `p`. -/
def Pch.linesWhere (p : Pch) (q : Fin 8 → Line → Bool) : LineSet := setOf fun k => q k p.lines[k]

/-- A line goes in in the event that gives it an owner (R129). -/
def Line.give (o : Owner) (l : Line) : Line := { l with owner := o, isIn := true }

/-- A line goes out in the event that takes its owner away (R129). -/
def Line.putOut (l : Line) : Line := { l with owner := .nobody, isIn := false }

/-- The lines of a set are given an owner. -/
def Pch.give (o : Owner) (set : LineSet) (p : Pch) : Pch :=
  { p with lines := mapLines (fun k l => if inSet k set then l.give o else l) p.lines }

/-- The lines of a set are put out. -/
def Pch.putOut (set : LineSet) (p : Pch) : Pch :=
  { p with lines := mapLines (fun k l => if inSet k set then l.putOut else l) p.lines }

/-- The lines a context owns. -/
def Pch.ownedBy (p : Pch) (j : Fin 4) : LineSet := p.linesWhere fun _ l => decide (l.owner = .context j)

/-! ## Transfers (Section 7.4) -/

/-- The lines of an assignment that a punch-in grants: in CUE mode, without owner, the unit NORMAL (R136). -/
def Pch.grantable (p : Pch) (set : LineSet) : LineSet :=
  p.linesWhere fun k l =>
    inSet k set && decide (l.mode = .cue) && decide (l.owner = .nobody) && decide (p.unit = .normal)

/-- The transfer of a context punch-in (R136). -/
def State.transferIn (j : Fin 4) (e : Staged) (s : State) : State :=
  let granted := s.pch.grantable e.lines
  let s := { s with pch := s.pch.give (.context j) granted }
  let s := s.post [.punchReport { ctx := j, loop := e.loop, action := .punchIn, lines := granted }]
  s.raise (.punch (.context j) granted 0 (e.lines &&& ~~~granted))

/-- The transfer of a context punch-out (R137). -/
def State.transferOut (j : Fin 4) (e : Staged) (s : State) : State :=
  let out := s.pch.ownedBy j
  let s := { s with pch := s.pch.putOut out }
  let s := s.post [.punchReport { ctx := j, loop := e.loop, action := .punchOut, lines := out }]
  s.raise (.punch (.context j) 0 out 0)

/-- The transfer of a context entry. -/
def State.transfer (j : Fin 4) (e : Staged) (s : State) : State :=
  match e.action with
  | .punchIn => s.transferIn j e
  | .punchOut => s.transferOut j e

/-- The lines that a manual entry moves: named, in MANUAL mode, with the owner given (R140). -/
def Pch.manualLines (p : Pch) (set : LineSet) (o : Owner) : LineSet :=
  p.linesWhere fun k l => inSet k set && decide (l.mode = .manual) && decide (l.owner = o)

/-- The named lines that a manual entry leaves alone because they are in CUE mode (R140). -/
def Pch.manualRefused (p : Pch) (set : LineSet) : LineSet :=
  p.linesWhere fun k l => inSet k set && decide (l.mode = .cue)

/-- The transfer of a manual entry (R140). -/
def State.transferManual (e : ManualEntry) (s : State) : State :=
  let refused := s.pch.manualRefused e.lines
  match e.action with
  | .punchIn =>
    let set := s.pch.manualLines e.lines .nobody
    State.raise (.punch .manual set 0 refused) { s with pch := s.pch.give .manual set }
  | .punchOut =>
    let set := s.pch.manualLines e.lines .manual
    State.raise (.punch .manual 0 set refused) { s with pch := s.pch.putOut set }

/-- The staged entry of a context takes a value. -/
def State.setStaged (j : Fin 4) (e : Option Staged) (s : State) : State :=
  { s with pch := { s.pch with staged := s.pch.staged.set j e } }

/-- The staged entry of a context leaves the list and is transferred, if its action is `a` and its target is
frame `n` (R134). -/
def State.transferDue (a : Action) (n : Nat) (s : State) (j : Fin 4) : State :=
  match s.pch.staged[j] with
  | some e => if e.action = a ∧ e.target = n then (s.setStaged j none).transfer j e else s
  | none => s

/-- A staged manual entry leaves the list and is transferred (R134, R141). -/
def State.transferStagedManual (s : State) : State :=
  match s.pch.manual with
  | some e => State.transferManual e { s with pch := { s.pch with manual := none } }
  | none => s

/-- PCH_FRAME_EDGE: punch-outs, then punch-ins, then the manual entry (R134, R135). -/
def execPchFrameEdge (e : FrameEdge) (s : State) : Host.Outcome State Fault Refusal :=
  let s := s.taken (.pchFrameEdge e)
  let s := { s with pch := { s.pch with lastEdge := some e.n } }
  let s := allCtx.foldl (State.transferDue .punchOut e.n) s
  let s := allCtx.foldl (State.transferDue .punchIn e.n) s
  .next s.transferStagedManual

/-! ## Stage requests and releases (Sections 7.3, 7.4) -/

/-- An entry of the scheduler is placed, or transferred at once where its target is the frame of the last edge
taken (R133, first two cases). -/
def State.placeEntry (j : Fin 4) (e : Staged) (s : State) : State :=
  if s.pch.lastEdge = some e.target then s.transfer j e else s.setStaged j (some e)

/-- A new entry of a context: an older one is transferred first (R133, third case). -/
def State.stageEntry (j : Fin 4) (e : Staged) (s : State) : State :=
  match s.pch.staged[j] with
  | some old => ((s.setStaged j none).transfer j old).placeEntry j e
  | none => s.placeEntry j e

/-- STAGE_REQUEST, taken in the order in which the Pass Scheduler made its requests and releases (R133). -/
def execStageRequest (r : StageRequest) (s : State) : Host.Outcome State Fault Refusal :=
  .next (s.takeInTurn (.stageRequest r)
    (State.stageEntry r.ctx { loop := r.loop, action := r.action, lines := r.lines, target := r.target }))

/-- The entry of an aborted context is discarded and its lines go out (R138). -/
def State.releaseLines (j : Fin 4) (s : State) : State :=
  let s := s.setStaged j none
  let out := s.pch.ownedBy j
  let t := { s with pch := s.pch.putOut out }
  if out = 0 then t else t.raise (.punch (.context j) 0 out 0)

/-- RELEASE, taken in the order in which the Pass Scheduler made its requests and releases (R133, R138). -/
def execRelease (j : Fin 4) (loop : Nat) (s : State) : Host.Outcome State Fault Refusal :=
  .next (s.takeInTurn (.release j loop) (State.releaseLines j))

/-! ## Commands (Sections 7.2, 7.5, 7.6) -/

/-- The mode SET_LINES gives a line. -/
def modeGiven (manual : LineSet) (k : Fin 8) : LineMode := if inSet k manual then .manual else .cue

/-- Whether SET_LINES would change the mode of a line whose owner is a context (R131). -/
def Pch.busy (p : Pch) (manual : LineSet) : Bool :=
  allLines.any fun k =>
    match p.lines[k].owner with
    | .context _ => decide (p.lines[k].mode ≠ modeGiven manual k)
    | .nobody | .manual => false

/-- The lines in by manual control that SET_LINES takes to CUE: they go out (R131). -/
def Pch.leaving (p : Pch) (manual : LineSet) : LineSet :=
  p.linesWhere fun k l => decide (l.owner = .manual) && decide (modeGiven manual k = .cue)

/-- The effect of SET_LINES on the line records (R131). -/
def Pch.setLines (manual activeLow : LineSet) (p : Pch) : Pch :=
  { p with
    lines := mapLines (fun k l => { l with mode := modeGiven manual k, activeLow := inSet k activeLow })
      (p.putOut (p.leaving manual)).lines }

/-- SET_LINES (R131). -/
def execSetLines (manual activeLow : LineSet) (s : State) : Host.Outcome State Fault Refusal :=
  .next (s.owner (.setLines manual activeLow) fun s =>
    if s.pch.busy manual then refuse .lineBusy s
    else
      let out := s.pch.leaving manual
      let t := { s with pch := s.pch.setLines manual activeLow }
      (if out = 0 then t else t.raise (.punch .manual 0 out 0), { result := .done }))

/-- Whether every line of a set is in MANUAL mode (R139). -/
def Pch.allManual (p : Pch) (set : LineSet) : Bool := p.manualRefused set == 0

/-- The effect of a PUNCH_MANUAL that passed its checks, by the unit's view of the position (R139, R141). -/
def State.punchManual (e : ManualEntry) (s : State) : State :=
  match s.pch.view with
  | .locked => { s with pch := { s.pch with manual := some e } }
  | .freewheel => { s with pch := { s.pch with manual := some e } }
  | .stopped => s.transferManual e
  | .unknown => s.transferManual e

/-- PUNCH_MANUAL (R139). -/
def execPunchManual (lines : LineSet) (action : Byte) (s : State) : Host.Outcome State Fault Refusal :=
  .next (s.owner (.punchManual lines action) fun s =>
    match actionOf action with
    | none => refuse .badField s
    | some a =>
      if lines = 0 then refuse .badField s
      else if s.pch.unit = .guarded then refuse .guarded s
      else if !s.pch.allManual lines then refuse .notManual s
      else (s.punchManual { lines := lines, action := a }, { result := .done }))

/-- Whether a fall of GUARD waits for the Punch Unit to take it (R176, log entry 19). -/
def State.fallWaits (s : State) : Bool := s.raised.contains (.guardTrip .taken)

/-- GUARD_RELEASE. A fall of the line that the unit has not yet taken does not refuse it: the release is then taken first
(R146, log entry 19). -/
def execGuardRelease (s : State) : Host.Outcome State Fault Refusal :=
  .next (s.owner .guardRelease fun s =>
    if s.board.guardHigh || s.fallWaits then ({ s with pch := { s.pch with unit := .normal } }, { result := .done })
    else refuse .guardActive s)

/-! ## State events and the guard -/

/-- PCH_STATE_EVENT: the unit's view of the position; into STOPPED or UNKNOWN a staged manual entry is transferred
(R141). -/
def execPchStateEvent (state : PosState) (dir : Dir) (s : State) : Host.Outcome State Fault Refusal :=
  let s := s.taken (.pchStateEvent state dir)
  let s := { s with pch := { s.pch with view := state } }
  .next (
    match state with
    | .stopped => s.transferStagedManual
    | .unknown => s.transferStagedManual
    | .locked | .freewheel => s)

/-- The Punch Unit as a guard trip leaves it (R143, steps 1 to 4). -/
def Pch.trip (p : Pch) : Pch :=
  { p with
    lines := mapLines (fun _ l => { l.putOut with mode := .manual }) p.lines,
    staged := Vector.replicate 4 none, manual := none, unit := .guarded }

/-- The lines that are in. -/
def Pch.linesIn (p : Pch) : LineSet := p.linesWhere fun _ l => l.isIn

/-- The line GUARD takes a level (R176). -/
def State.setGuard (high : Bool) (s : State) : State := { s with board := { s.board with guardHigh := high } }

/-- The line GUARD falls, and the edge waits for the Punch Unit; a line that is low does not fall (R176, log entry 19). -/
def State.guardFalls (s : State) : State :=
  if s.board.guardHigh then (s.setGuard false).post [.guardTrip .taken] else s

/-- The Punch Unit takes a falling edge on GUARD (R143). -/
def State.tripGuard (s : State) : State :=
  State.raise (.guardTripped s.pch.linesIn) (State.post [.guardReport] { s with pch := s.pch.trip })

/-- GUARD_TRIP: the line falls, or the Punch Unit takes the fall. A fall taken that none has preceded is the fall of the
line and its taking in one event (R143, R176, log entry 19). -/
def execGuardTrip (s : State) (fall : GuardFall := .taken) : Host.Outcome State Fault Refusal :=
  .next (
    match fall with
    | .line => s.guardFalls
    | .taken => if s.fallWaits then (s.taken (.guardTrip .taken)).tripGuard else (s.setGuard false).tripGuard)

/-- GUARD_RISE: GUARD rises, which has no effect of its own but makes GUARD_RELEASE possible (R143). -/
def execGuardRise (s : State) : Host.Outcome State Fault Refusal :=
  .next (s.setGuard true)

end Sys2Proof.Machine
end

