-- ==== Sys2Proof/Machine/Scheduler.lean ====
section
/-! DEFINITION. The Pass Scheduler (Chapter 5): the work of a frame edge in the four steps of R91, state events,
the reports of the Punch Unit, and PASS_ABORT. -/

namespace Sys2Proof.Machine

/-! ## The next-cue pointer (Section 5.3) -/

/-- A running edge (R91). -/
def runningEdge (e : FrameEdge) : Bool := decide (e.dir = .forward) && e.inSpeed && !e.jump

/-- The cause an abort edge gives (R103). -/
def edgeCause (e : FrameEdge) : AbortCause :=
  if e.jump then .jump else if e.dir = .reverse then .reverse else .offSpeed

/-- Whether the edge is picture crossing midnight (R88). -/
def crossesMidnight (rate : Rate) (e : FrameEdge) : Bool :=
  match e.dir with
  | .forward => e.n == 0
  | .reverse => e.n == rate.fDay - 1

/-- Whether the pointer is re-found at the edge (R88). -/
def State.refindNow (s : State) (e : FrameEdge) : Bool :=
  s.psc.pointer.isNone || s.psc.refind || e.jump || e.resume || crossesMidnight s.pos.rate e

/-- The first position of a reel's list whose cue has a key above `n`, or the cue count (R86). -/
def Reel.positionOf (n : Nat) (r : Reel) : Nat := (r.order.takeWhile fun slot => decide (r.key slot ≤ (n : Int))).length

/-- The pointer takes a value. -/
def State.setPointer (p : Option Nat) (s : State) : State := { s with psc := { s.psc with pointer := p } }

/-- The test of a cue before a re-found pointer: LATE_START for an ARMED cue inside its line, frames taken
with the conform delta where its flag is set; its waited flag is cleared (R88). -/
def State.testLate (n : Nat) (s : State) (slot : Nat) : State :=
  let r := s.cst.playReel
  match s.cue r slot with
  | none => s
  | some c =>
    let d : Int := if c.conformPending then (s.reel r).delta else 0
    let inside := decide ((c.vals.inPt : Int) + d ≤ (n : Int)) && decide ((n : Int) < (c.vals.outPt : Int) + d)
    let t := s.modCue r slot fun x => { x with waited := false }
    match c.state, inside with
    | .armed _, true => t.raise (.missed c.loop .lateStart)
    | _, _ => t

/-- The test of a cue the pointer advances over: NO_CONTEXT or NOT_ENTERED for an ARMED cue; its waited flag is
cleared (R89). -/
def State.testPassed (s : State) (slot : Nat) : State :=
  let r := s.cst.playReel
  match s.cue r slot with
  | none => s
  | some c =>
    let t := s.modCue r slot fun x => { x with waited := false }
    match c.state with
    | .armed _ => t.raise (.missed c.loop (if c.waited then .noContext else .notEntered))
    | .ready | .passing _ | .done => t

/-- The pointer is re-found, and the re-find mark cleared (R86, R88). -/
def State.refindPointer (n : Nat) (s : State) : State :=
  let r := s.playReel
  let p := r.positionOf n
  let s := { s with psc := { s.psc with pointer := some p, refind := false } }
  (r.order.take p).foldl (State.testLate n) s

/-- The pointer is moved from a position on an edge (R87). -/
def State.movePointer (e : FrameEdge) (p : Nat) (s : State) : State :=
  let r := s.playReel
  match e.dir with
  | .forward =>
    let passed := (r.order.drop p).takeWhile fun slot => decide (r.key slot ≤ (e.n : Int))
    passed.foldl State.testPassed (s.setPointer (some (p + passed.length)))
  | .reverse =>
    let back := (r.order.take p).reverse.takeWhile fun slot => decide ((e.n : Int) < r.key slot)
    s.setPointer (some (p - back.length))

/-- Step 2 of R91: the pointer is re-found or moved. -/
def State.pointerWork (e : FrameEdge) (s : State) : State :=
  if s.refindNow e then s.refindPointer e.n
  else
    match s.psc.pointer with
    | some p => s.movePointer e p
    | none => s

/-- The look-ahead slice: the slots of the eight entries from the pointer on (R90). -/
def State.slice (s : State) : List Nat :=
  match s.psc.pointer with
  | some p => (s.playReel.order.drop p).take Config.sliceLength
  | none => []

/-! ## Phases, staging and the take (Section 5.6) -/

/-- The frame on whose running edge a pass closes: X, or X − F_day across midnight (R85, R96). -/
def closeFrame (rate : Rate) (x : Nat) : Nat := if x < rate.fDay then x else x - rate.fDay

/-- Whether a pass crosses midnight before its close (R85). -/
def wraps (rate : Rate) (x : Nat) : Bool := decide (rate.fDay ≤ x)

/-- The phase of a context on a running edge (R96). A pass whose close lies beyond midnight stays in TAIL once it
is there. On a frame of none of the ranges the phase is kept. -/
def phaseAt (rate : Rate) (c : Ctx) (v : CueVals) (n : Nat) : Phase :=
  if wraps rate c.close ∧ c.phase = .tail then .tail
  else if c.entry ≤ n ∧ n < v.inPt then .lead
  else if v.inPt ≤ n ∧ n < v.outPt then .line
  else if v.outPt ≤ n ∧ n < c.close then .tail
  else c.phase

/-- Whether the pass closes at frame `n`: at X, or across midnight from its TAIL at X − F_day (R96, R101). -/
def closesAt (rate : Rate) (c : Ctx) (n : Nat) : Bool :=
  decide (n = closeFrame rate c.close) && (!wraps rate c.close || decide (c.phase = .tail))

/-- The staging work of a RECORD pass: a take is reserved and the punch-in staged, or the pass becomes REHEARSE
for want of room (R97). -/
def State.reserve (k : Fin 4) (c : Ctx) (cue : Cue) (s : State) : State :=
  if cue.hasRoom then
    let s := s.modCue c.reel c.slot (Cue.addTake c.late)
    let s := s.setCtx k (some { c with take := some cue.nextTake })
    s.post [.stageRequest { ctx := k, loop := c.loop, action := .punchIn, lines := cue.vals.lines, target := cue.vals.inPt }]
  else (s.setCtx k (some { c with kind := .rehearse })).raise (.takesFull c.loop)

/-- The punch-out staged at the frame before the out-point (R99). -/
def State.stageOut (k : Fin 4) (c : Ctx) (v : CueVals) (s : State) : State :=
  s.post [.stageRequest { ctx := k, loop := c.loop, action := .punchOut, lines := 0, target := v.outPt }]

/-- The take is closed at the out-point edge with the lines held, counting as held those the punch-out transfer of
the edge has already released (R100, R152). -/
def State.closeTake (c : Ctx) (v : CueVals) (s : State) : State :=
  match c.take with
  | none => s
  | some number => s.modCue c.reel c.slot (Cue.modTake number (Take.close v.lines (c.held ||| c.released)))

/-- The parts of the edge's work that a RECORD context does, each where its frame applies (R96). -/
def State.recordWork (k : Fin 4) (c : Ctx) (cue : Cue) (n : Nat) (s : State) : State :=
  match c.kind with
  | .rehearse => s
  | .record =>
    if n + 1 = cue.vals.inPt ∧ c.phase = .lead then s.reserve k c cue
    else
      let s := if n + 1 = cue.vals.outPt then s.stageOut k c cue.vals else s
      if n = cue.vals.outPt then s.closeTake c cue.vals else s

/-- Step 3 of R91 for one context: its phase, its staging and take work, and its close (R96, R101). -/
def State.phaseWork (n : Nat) (s : State) (k : Fin 4) : State :=
  match s.ctx k with
  | none => s
  | some c =>
    match s.cue c.reel c.slot with
    | none => s
    | some cue =>
      let c' := { c with phase := phaseAt s.pos.rate c cue.vals n }
      if closesAt s.pos.rate c n then
        (State.recordWork k c cue n (s.setCtx k (some c))).closeCtx k
      else State.recordWork k c' cue n (s.setCtx k (some c'))

/-! ## Entry (Section 5.5) -/

/-- The kind with which a cue is an entry candidate at frame `n` (R92). -/
def candidate (n : Nat) (c : Cue) : Option ArmKind :=
  match c.state with
  | .armed kind => if !c.conformPending && decide (c.vals.entry ≤ n) && decide (n < c.vals.inPt) then some kind else none
  | .ready | .passing _ | .done => none

/-- A cue enters a pass (R94, R95). -/
def State.enter (n : Nat) (k : Fin 4) (slot : Nat) (kind : ArmKind) (cue : Cue) (s : State) : State :=
  let r := s.cst.playReel
  let c : Ctx :=
    { reel := r, slot := slot, loop := cue.loop, kind := kind, phase := .lead, entry := cue.vals.entry,
      close := cue.vals.close, late := decide (cue.vals.entry < n), granted := 0, held := 0, released := 0, take := none }
  let s := (s.setCtx k (some c)).modCue r slot fun x => { x with state := .passing kind, waited := false }
  let s := s.raise (.passBegin k r cue.loop cue.vals.char kind c.late)
  let s := s.post [.entryHandover k n]
  if n + 1 = cue.vals.inPt ∧ kind = .record then s.reserve k c cue else s

/-- A candidate is served: entered in the lowest FREE context, or marked waited where all four are ACTIVE (R93). `served`
holds the slots whose passes closed at this edge, which are no candidates at it (R92). R8 says that no pass can start on the
old play reel while a selection is pending, and R91 to R93 name no such condition: the model leaves a candidate that finds
a FREE context as it is while a pending play reel is present (log entry 31). -/
def State.serve (n : Nat) (served : List Nat) (s : State) (slot : Nat) : State :=
  match s.cue s.cst.playReel slot with
  | none => s
  | some cue =>
    match candidate n cue, served.contains slot with
    | some kind, false =>
      match s.firstFree with
      | some k => if s.cst.pendingPlay.isSome then s else s.enter n k slot kind cue
      | none => s.modCue s.cst.playReel slot fun x => { x with waited := true }
    | _, _ => s

/-- The slots of the cues that the contexts serve. -/
def State.servedSlots (s : State) : List Nat := allCtx.filterMap fun k => (s.ctx k).map fun c => c.slot

/-- Whether entries may be made: the play reel is neither CONFORMING nor PARTIAL (R91, step 4). -/
def Reel.entriesAllowed (r : Reel) : Bool :=
  match r.state with
  | .conforming => false
  | .partly => false
  | .empty | .opened | .locked => true

/-! ## The work of a frame edge (R91) -/

/-- Whether a pending play reel has been applied between two states of one event (R8, R91). -/
def switched (s t : State) : Bool := s.cst.pendingPlay.isSome && t.cst.pendingPlay.isNone

/-- Step 1 of R91: an abort edge aborts every ACTIVE context. -/
def State.edgeAborts (e : FrameEdge) (s : State) : State :=
  if runningEdge e then s else s.abortAll (edgeCause e) allCtx

/-- Step 3 of R91: every ACTIVE context in index order. -/
def State.edgePhases (n : Nat) (s : State) : State := allCtx.foldl (State.phaseWork n) s

/-- Step 4 of R91: the entries of the slice, in slice order. -/
def State.edgeEntries (n : Nat) (slice served : List Nat) (s : State) : State :=
  if s.playReel.entriesAllowed then slice.foldl (State.serve n served) s else s

/-- Steps 3 and 4 of R91 on a running edge. Where a close applies a pending play reel, step 4 is not made and
the pointer is left unset. -/
def State.edgeRuns (n : Nat) (s : State) : State :=
  let t := s.edgePhases n
  if switched s t then t.setPointer none else t.edgeEntries n s.slice s.servedSlots

/-- The re-find mark is set where `on` holds, and otherwise left as it is. -/
def State.markWhere (on : Bool) (s : State) : State := { s with psc := { s.psc with refind := s.psc.refind || on } }

/-- Step 1 of R91 with the re-find mark put aside: the state it leaves with the mark as it stood when the edge was taken,
and whether an abort of the step set it. -/
def State.edgeFirst (e : FrameEdge) (s : State) : State × Bool :=
  let t := State.edgeAborts e { s with psc := { s.psc with refind := false } }
  ({ t with psc := { t.psc with refind := s.psc.refind } }, t.psc.refind)

/-- The four steps of R91. A mark set in step 1, by a pending edit that an abort applied, causes the re-finding at the edge
after this one (R11, R46): step 2 does not see it (log entry 14). Where an abort of step 1 applies a pending play reel,
step 2 is not made and the pointer is left unset. -/
def State.edgeWork (e : FrameEdge) (s : State) : State :=
  let (t, mark) := s.edgeFirst e
  if switched s t then (t.markWhere mark).setPointer none
  else
    let t := (t.pointerWork e).markWhere mark
    if runningEdge e then t.edgeRuns e.n else t

/-- The lane report at the end of the edge's work (R118). -/
def State.laneReport (e : FrameEdge) (s : State) : LaneReport :=
  { n := e.n, state := e.state, lanes := allCtx.filterMap fun k => (s.ctx k).map fun c => (k, c.phase) }

/-- PSC_FRAME_EDGE: the Pass Scheduler takes a frame edge (R91, R118). -/
def execPscFrameEdge (e : FrameEdge) (s : State) : Host.Outcome State Fault Refusal :=
  let t := (s.taken (.pscFrameEdge e)).edgeWork e
  .next (t.post [.laneReport (t.laneReport e)])

/-! ## Other events of the scheduler -/

/-- PSC_STATE_EVENT: a state event into STOPPED aborts every ACTIVE context (R103). -/
def execPscStateEvent (state : PosState) (dir : Dir) (s : State) : Host.Outcome State Fault Refusal :=
  let s := s.taken (.pscStateEvent state dir)
  .next (
    match state with
    | .stopped => s.abortAll .stopped allCtx
    | .unknown | .locked | .freewheel => s)

/-- A punch report applied to a context (R98, R99). The lines a punch-out takes from the held set are kept in
`released`, since they count as held at the out-point edge (R100). -/
def Ctx.report (r : PunchReport) (c : Ctx) : Ctx :=
  match r.action with
  | .punchIn => { c with granted := r.lines, held := r.lines, released := 0 }
  | .punchOut => { c with held := 0, released := c.held }

/-- A punch report is applied to the context named, if it still serves the loop the report carries (R98). -/
def State.applyReport (r : PunchReport) (s : State) : State :=
  match s.ctx r.ctx with
  | some c => if c.loop = r.loop then s.setCtx r.ctx (some (c.report r)) else s
  | none => s

/-- PUNCH_REPORT, taken in the order in which the Punch Unit made its reports (R98, R144). -/
def execPunchReport (r : PunchReport) (s : State) : Host.Outcome State Fault Refusal :=
  .next (s.takeInTurn (.punchReport r) (State.applyReport r))

/-- A take that is OPEN is marked guard-tripped (R144, R154). -/
def Take.trip (t : Take) : Take := if t.result = .opened then { t with guardTripped := true } else t

/-- A guard report is taken for one context (R144). -/
def State.guardCtx (s : State) (k : Fin 4) : State :=
  match s.ctx k with
  | none => s
  | some c =>
    let s := s.setCtx k (some { c with held := 0, released := 0 })
    match c.take with
    | none => s
    | some number => s.modCue c.reel c.slot (Cue.modTake number Take.trip)

/-- GUARD_REPORT: the held sets are emptied and the OPEN takes marked; taken in the order in which the Punch Unit made its
reports (R144). -/
def execGuardReport (s : State) : Host.Outcome State Fault Refusal :=
  .next (s.takeInTurn .guardReport fun s => allCtx.foldl State.guardCtx s)

/-- The contexts of a list that are ACTIVE, as a set (R106). -/
def State.activeAmong (s : State) (ks : List (Fin 4)) : CtxSet :=
  ctxSetOf fun k => ks.contains k && (s.ctx k).isSome

/-- PASS_ABORT (R106). -/
def execPassAbort (context : Byte) (s : State) : Host.Outcome State Fault Refusal :=
  .next (s.owner (.passAbort context) fun s =>
    match contextsOf context with
    | none => refuse .badField s
    | some ks => (s.abortAll .commanded ks, { result := .done, data := .aborted (s.activeAmong ks) }))

end Sys2Proof.Machine
end

