-- ==== Sys2Proof/Machine/Takes.lean ====
section
/-! DEFINITION. TAKE_CIRCLE and TAKE_RETIRE (Section 8.3), and the delivery of an onset report into takes
(Section 8.4.1). -/

namespace Sys2Proof.Machine

/-- The checks of a take command, in the order of R155: coded values, the reel, the cue, protection, the take,
its result. -/
def takeChecks (fieldsOk : Bool) (loop : BitVec 16) (take : Byte) (f : Nat → State → State) (s : State) :
    State × Reply :=
  if !fieldsOk then refuse .badField s
  else if s.editReel.state = .partly then refuse .reelPartial s
  else withCue loop (fun slot c s =>
    if c.protect then refuse .protectedCue s
    else
      match c.take take.toNat with
      | none => refuse .noSuchTake s
      | some t => if t.result = .opened then refuse .passActive s else (f slot s, { result := .done })) s

/-- TAKE_CIRCLE (R155). -/
def execTakeCircle (loop : BitVec 16) (take value : Byte) (s : State) : Host.Outcome State Fault Refusal :=
  .next (s.owner (.takeCircle loop take value) fun s =>
    match onOffOf value with
    | none => refuse .badField s
    | some on =>
      takeChecks (loopOk loop && takeOk take) loop take (fun slot s =>
        s.modCue s.cst.editReel slot (Cue.modTake take.toNat fun t => { t with circled := on })) s)

/-- A context that holds the take that leaves its cue's list holds none from then on (R156). -/
def Ctx.dropTake (r : Fin 8) (slot number : Nat) (c : Ctx) : Ctx :=
  if c.serves r slot && decide (c.take = some number) then { c with take := none } else c

/-- The effect of TAKE_RETIRE (R156). -/
def State.retireTake (slot number : Nat) (s : State) : State :=
  let r := s.cst.editReel
  let s := s.modCue r slot (Cue.dropTake number)
  allCtx.foldl (fun s k => s.setCtx k ((s.ctx k).map (Ctx.dropTake r slot number))) s

/-- TAKE_RETIRE (R156). -/
def execTakeRetire (loop : BitVec 16) (take : Byte) (s : State) : Host.Outcome State Fault Refusal :=
  .next (s.owner (.takeRetire loop take)
    (takeChecks (loopOk loop && takeOk take) loop take fun slot => State.retireTake slot take.toNat))

/-! ## Onset reports -/

/-- The start W of the capture window (R160). -/
def windowStart (inPt allowance : Nat) : Nat := (inPt - allowance) * Config.ticksPerFrame

/-- Whether the qualifying tick lies in the capture window of a cue (R160). -/
def inWindowOf (v : CueVals) (q allowance : Nat) : Bool :=
  decide (windowStart v.inPt allowance ≤ q) && decide (q < v.outPt * Config.ticksPerFrame)

/-- The voice offset of an onset (R160): from W where the onset lies before it or the run began before a
midnight crossing. -/
def voiceOffset (v : CueVals) (o q allowance : Nat) : Int :=
  let w := windowStart v.inPt allowance
  (if o < w ∨ q < o then (w : Int) else (o : Int)) - (v.inPt * Config.ticksPerFrame : Nat)

/-- An OPEN take without an offset receives one (R161). -/
def Take.hear (offset : Int) (t : Take) : Take :=
  if t.result = .opened ∧ t.offset = none then { t with offset := some offset } else t

/-- An onset report is taken for one context: its OPEN take, if the qualifying tick lies in the window of its
cue (R161). -/
def State.hearCtx (o q allowance : Nat) (s : State) (k : Fin 4) : State :=
  match s.ctx k with
  | none => s
  | some c =>
    match c.take, s.cue c.reel c.slot with
    | some number, some cue =>
      if inWindowOf cue.vals q allowance then
        s.modCue c.reel c.slot (Cue.modTake number (Take.hear (voiceOffset cue.vals o q allowance)))
      else s
    | _, _ => s

/-- ONSET_REPORT: the Cue Store takes an onset report (R161). -/
def execOnsetReport (onset qualifying allowance : Nat) (s : State) : Host.Outcome State Fault Refusal :=
  .next (allCtx.foldl (State.hearCtx onset qualifying allowance) (s.taken (.onsetReport onset qualifying allowance)))

end Sys2Proof.Machine
end

