-- ==== Sys2Proof/Machine/Voice.lean ====
section
/-! DEFINITION. The Voice Gate (Section 8.4): the voice level, the counting of a run on ticks, state events and
SET_VOICE. -/

namespace Sys2Proof.Machine

/-- VOICE_EDGE: an edge on VOICE sets the voice level and does nothing else (R158). -/
def execVoiceEdge (rising : Bool) (s : State) : Host.Outcome State Fault Refusal :=
  .next { s with vgt := { s.vgt with level := rising } }

/-- Whether a forward tick is consecutive: the last tick was forward and its T is one less, taken round the day
(R159). -/
def Vgt.consecutive (v : Vgt) (rate : Rate) (t : Nat) : Bool :=
  match v.last with
  | some (p, .forward) => decide (t = if p + 1 < rate.fDay * Config.ticksPerFrame then p + 1 else 0)
  | some (_, .reverse) => false
  | none => false

/-- No run (Table 8-2). -/
def Vgt.idle (v : Vgt) : Vgt := { v with run := .idle, start := none, count := 0 }

/-- A new run that begins on a tick (R159). -/
def Vgt.begin (t : Nat) (v : Vgt) : Vgt := { v with run := .counting, start := some t, count := 1 }

/-- The run after a forward tick, before it is qualified (R159). -/
def Vgt.countTick (t : Nat) (consecutive : Bool) (v : Vgt) : Vgt :=
  if v.level then
    match v.run, consecutive with
    | .idle, _ => v.begin t
    | .counting, false => v.begin t
    | .qualified, false => v.begin t
    | .counting, true => { v with count := v.count + 1 }
    | .qualified, true => v
  else v.idle

/-- Whether a counting run qualifies (R159). -/
def Vgt.qualifies (v : Vgt) : Bool := decide (v.run = .counting) && decide (v.qualify ≤ v.count)

/-- The Voice Gate after a tick (R159). -/
def Vgt.tick (rate : Rate) (t : Nat) (dir : Dir) (v : Vgt) : Vgt :=
  match dir with
  | .forward =>
    let w := v.countTick t (v.consecutive rate t)
    { w with run := if w.qualifies then .qualified else w.run, last := some (t, .forward) }
  | .reverse => { v.idle with last := some (t, .reverse) }

/-- The onset report of a tick, if its run qualifies on it (R159, R161). -/
def Vgt.report (rate : Rate) (t : Nat) (dir : Dir) (v : Vgt) : List Instr :=
  match dir with
  | .forward =>
    let w := v.countTick t (v.consecutive rate t)
    if w.qualifies then [.onsetReport (w.start.getD t) t w.allowance] else []
  | .reverse => []

/-- VGT_TICK (R159). -/
def execVgtTick (t : Nat) (dir : Dir) (s : State) : Host.Outcome State Fault Refusal :=
  let s := s.taken (.vgtTick t dir)
  .next (State.post (s.vgt.report s.pos.rate t dir) { s with vgt := s.vgt.tick s.pos.rate t dir })

/-- VGT_STATE_EVENT: into STOPPED or UNKNOWN the run and the last tick are reset (R159). -/
def execVgtStateEvent (state : PosState) (dir : Dir) (s : State) : Host.Outcome State Fault Refusal :=
  let s := s.taken (.vgtStateEvent state dir)
  .next (
    match state with
    | .stopped => { s with vgt := { s.vgt.idle with last := none } }
    | .unknown => { s with vgt := { s.vgt.idle with last := none } }
    | .locked | .freewheel => s)

/-- SET_VOICE (R162). -/
def execSetVoice (qualify allowance : Byte) (s : State) : Host.Outcome State Fault Refusal :=
  .next (s.owner (.setVoice qualify allowance) fun s =>
    ({ s with vgt := { s.vgt with qualify := max qualify.toNat 1, allowance := min allowance.toNat 48 } },
     { result := if 1 ≤ qualify.toNat ∧ allowance.toNat ≤ 48 then .done else .adjusted }))

end Sys2Proof.Machine
end

