-- ==== Sys2Proof/Machine/Dispatch.lean ====
section
/-! DEFINITION. The dispatch of a command to its meaning, one arm for each constructor of `Instr`. -/

namespace Sys2Proof.Machine

def exec (i : Instr) (s : State) : Host.Outcome State Fault Refusal :=
  match i with
  | .coldReset => Sys2Proof.Machine.execColdReset s
  | .warmReset byLine => Sys2Proof.Machine.execWarmReset byLine s
  | .status => Sys2Proof.Machine.execStatus s
  | .restart => Sys2Proof.Machine.execRestart s
  | .setRate code => Sys2Proof.Machine.execSetRate code s
  | .setFreewheel limit => Sys2Proof.Machine.execSetFreewheel limit s
  | .positionRead => Sys2Proof.Machine.execPositionRead s
  | .setVoice qualify allowance => Sys2Proof.Machine.execSetVoice qualify allowance s
  | .setFlash length => Sys2Proof.Machine.execSetFlash length s
  | .setLines manual activeLow => Sys2Proof.Machine.execSetLines manual activeLow s
  | .punchManual lines action => Sys2Proof.Machine.execPunchManual lines action s
  | .guardRelease => Sys2Proof.Machine.execGuardRelease s
  | .passAbort context => Sys2Proof.Machine.execPassAbort context s
  | .reelSelectPlay reel form => Sys2Proof.Machine.execReelSelectPlay reel s form
  | .reelSelectEdit reel => Sys2Proof.Machine.execReelSelectEdit reel s
  | .reelSelectTag reel tag form => Sys2Proof.Machine.execReelSelectTag reel tag s form
  | .reelInfo reel => Sys2Proof.Machine.execReelInfo reel s
  | .reelClear => Sys2Proof.Machine.execReelClear s
  | .reelShift delta => Sys2Proof.Machine.execReelShift delta s
  | .reelCopy source dest delta => Sys2Proof.Machine.execReelCopy source dest delta s
  | .reelResume => Sys2Proof.Machine.execReelResume s
  | .cueWrite loop fields => Sys2Proof.Machine.execCueWrite loop fields s
  | .cueAmend loop reserved fields => Sys2Proof.Machine.execCueAmend loop reserved fields s
  | .cueRetire loop => Sys2Proof.Machine.execCueRetire loop s
  | .cueRead loop => Sys2Proof.Machine.execCueRead loop s
  | .cueNext label => Sys2Proof.Machine.execCueNext label s
  | .cueArm loop kind => Sys2Proof.Machine.execCueArm loop kind s
  | .cueDisarm loop => Sys2Proof.Machine.execCueDisarm loop s
  | .cueProtect loop value => Sys2Proof.Machine.execCueProtect loop value s
  | .takeCircle loop take value => Sys2Proof.Machine.execTakeCircle loop take value s
  | .takeRetire loop take => Sys2Proof.Machine.execTakeRetire loop take s
  | .rxByte byte framingError => Sys2Proof.Machine.execRxByte byte framingError s
  | .gapTimerExpiry => Sys2Proof.Machine.execGapTimerExpiry s
  | .txMessageEnd => Sys2Proof.Machine.execTxMessageEnd s
  | .ltcFrame frame => Sys2Proof.Machine.execLtcFrame frame s
  | .watchTimerExpiry => Sys2Proof.Machine.execWatchTimerExpiry s
  | .freewheelTimerExpiry => Sys2Proof.Machine.execFreewheelTimerExpiry s
  | .posTick => Sys2Proof.Machine.execPosTick s
  | .pscFrameEdge edge => Sys2Proof.Machine.execPscFrameEdge edge s
  | .pscStateEvent state dir => Sys2Proof.Machine.execPscStateEvent state dir s
  | .punchReport report => Sys2Proof.Machine.execPunchReport report s
  | .guardReport => Sys2Proof.Machine.execGuardReport s
  | .pchFrameEdge edge => Sys2Proof.Machine.execPchFrameEdge edge s
  | .stageRequest request => Sys2Proof.Machine.execStageRequest request s
  | .release ctx loop => Sys2Proof.Machine.execRelease ctx loop s
  | .pchStateEvent state dir => Sys2Proof.Machine.execPchStateEvent state dir s
  | .guardTrip fall => Sys2Proof.Machine.execGuardTrip s fall
  | .guardRise => Sys2Proof.Machine.execGuardRise s
  | .ciuTick tick dir => Sys2Proof.Machine.execCiuTick tick dir s
  | .entryHandover ctx start => Sys2Proof.Machine.execEntryHandover ctx start s
  | .freeHandover ctx => Sys2Proof.Machine.execFreeHandover ctx s
  | .laneReport report => Sys2Proof.Machine.execLaneReport report s
  | .ovlStateEvent state dir => Sys2Proof.Machine.execOvlStateEvent state dir s
  | .descriptorSent => Sys2Proof.Machine.execDescriptorSent s
  | .voiceEdge rising => Sys2Proof.Machine.execVoiceEdge rising s
  | .vgtTick tick dir => Sys2Proof.Machine.execVgtTick tick dir s
  | .vgtStateEvent state dir => Sys2Proof.Machine.execVgtStateEvent state dir s
  | .onsetReport onset qualifying allowance => Sys2Proof.Machine.execOnsetReport onset qualifying allowance s
  | .shiftStep => Sys2Proof.Machine.execShiftStep s
  | .copyStep => Sys2Proof.Machine.execCopyStep s
  | .toneHalfWave => Sys2Proof.Machine.execToneHalfWave s
  | .resetRelease => Sys2Proof.Machine.execResetRelease s

end Sys2Proof.Machine
end

