-- ==== Sys2Proof/Machine/Outputs.lean ====
section
/-! DEFINITION. What the outside sees of a state: the bytes of the message on LINK TX, the levels of the PUNCH lines
and of TONE, and the bytes of the descriptor on OVL DATA (Table 0-2). They follow from the state; nothing in the
part reads them. -/

namespace Sys2Proof.Machine

/-- The bytes of the message that LINK TX carries, none while the line is idle (R175, R179). -/
def State.linkTx (s : State) : List Byte := s.lnk.wire.elim [] fun m => frameBytes m.body

/-- The level driven on a PUNCH line: true is high (R130). -/
def Line.output (l : Line) : Bool := l.isIn != l.activeLow

/-- The level on PUNCH line `k` (R130). -/
def State.punchOut (s : State) (k : Fin 8) : Bool := s.pch.lines[k].output

/-- The level on TONE: true is high (R114). -/
def State.toneOut (s : State) : Bool := s.ciu.tone.level

/-- The bytes of the descriptor that OVL DATA carries, none while the port rests (R126, R185). -/
def State.ovlData (s : State) : List Byte := s.ovl.wire.elim [] Descriptor.bytes

/-- OVL CLK runs exactly while a descriptor is being sent (R126). -/
def State.ovlClockRuns (s : State) : Bool := s.ovl.wire.isSome

end Sys2Proof.Machine
end

