-- ==== Sys2Proof/Safety.lean ====
section
/-! DEFINITION. The terms in which statements about the part are made: what the link holds to send, what an answered
command leaves of the state, and the laws that the spec says the part keeps. -/

namespace Sys2Proof.Machine

/-! ## What a command leaves unchanged -/

/-- The state apart from the Command Link and the model's own two fields: equal values of it say that every other
piece of state is equal. -/
def State.apart (s : State) : State := { s with lnk := Link.reset, lastAnswer := none, ties := 0 }

/-- The notices the link holds to send, the one on LINK TX first, then the queue. -/
def Link.noticesHeld (l : Link) : List Notice :=
  match l.wire with
  | some (.notice n) => n :: l.notices
  | some (.answer _) | some (.linkAnswer _) | none => l.notices

/-- The answers the link holds to send, the one on LINK TX first, then the answer list with its empty place. -/
def Link.placesHeld (l : Link) : List Place :=
  match l.wire with
  | some (.answer a) => .owner (some a) :: l.answers
  | some (.linkAnswer a) => .link a :: l.answers
  | some (.notice _) | none => l.answers

/-- The notice queue has room for `k` more notices (R173). -/
def Link.roomFor (k : Nat) (l : Link) : Prop := l.notices.length + k ≤ Config.noticeRoom

/-- An event raised exactly the notices `ns`, in that order, and did nothing else to the link: the receiver, the held
command, the answers and the overrun flag stand as they did. -/
def Noticed (ns : List Notice) (s t : State) : Prop :=
  t.lnk.noticesHeld = s.lnk.noticesHeld ++ ns ∧ t.lnk.placesHeld = s.lnk.placesHeld ∧ t.lnk.held = s.lnk.held
    ∧ t.lnk.rx = s.lnk.rx ∧ t.lnk.overrun = s.lnk.overrun ∧ t.lastAnswer = s.lastAnswer ∧ t.ties = s.ties

/-- The answers the link holds once the owner of command `i` has made answer `a`: where the link carries the answer
(`State.carries`), it fills the empty place, a place made for it in the same event when no command was held (log entry 2). -/
def State.placesAfter (i : Instr) (a : Answer) (s : State) : List Place :=
  if s.carries i then
    fillPlace a (s.lnk.placesHeld ++ if s.lnk.held.isNone then [.owner none] else [])
  else s.lnk.placesHeld

/-- The command that is held once the owner of command `i` has taken it (log entry 2). -/
def State.heldAfter (i : Instr) (s : State) : Option Held :=
  if s.carries i then some { body := (s.lnk.held.map fun h => h.body).getD (bodyOf i), taken := true } else s.lnk.held

/-- Answer `a` to command `i` went its way through the link: it filled the place of the held command (log entry 2). -/
def Delivered (i : Instr) (a : Answer) (s t : State) : Prop :=
  t.lnk.placesHeld = s.placesAfter i a ∧ t.lnk.held = s.heldAfter i

/-- The owner of command `i` made the answer with result `r` and data `d`, and the event raised exactly the notices
`ns`; the receiver and the overrun flag stand as they did. What becomes of the answer in the link is `Delivered`. -/
def Answered (i : Instr) (r : Result) (d : AnswerData) (ns : List Notice) (s t : State) : Prop :=
  t.lastAnswer = some { kind := (kindOf i).getD 0, result := r, data := d }
    ∧ t.lnk.noticesHeld = s.lnk.noticesHeld ++ ns ∧ t.lnk.rx = s.lnk.rx ∧ t.lnk.overrun = s.lnk.overrun

/-- A state event as its four takers take it (R79). -/
def stateEvents (state : PosState) (dir : Dir) : List Instr :=
  [.pscStateEvent state dir, .ovlStateEvent state dir, .pchStateEvent state dir, .vgtStateEvent state dir]

/-- A frame edge as its two takers take it, and the tick of its first cell `b` that follows it (R77, R78). -/
def edgeEvents (e : FrameEdge) (b : Nat) : List Instr :=
  [.pscFrameEdge e, .pchFrameEdge e, .ciuTick (e.n * 80 + b) e.dir, .vgtTick (e.n * 80 + b) e.dir]

/-- A result that says the command was not carried out (R172). -/
def Result.isRefusal : Result → Bool
  | .done => false
  | .adjusted => false
  | .pending => false
  | .linkError | .overrun | .unknownKind | .badLength | .badField | .badTimecode | .noSuchCue | .duplicateLoop
  | .reelFull | .reelBusy | .reelPartial | .reelNotEmpty | .outOfDay | .conformBusy | .noSuchTake | .protectedCue
  | .passActive | .takesFull | .takeLimit | .noLines | .lineBusy | .notManual | .guarded | .guardActive => true

/-- Command `i` was refused with code `r`: nothing outside the link changed, no notice was raised, and the answer carries
the code alone (R25, R172). -/
def Refused (i : Instr) (r : Result) (s t : State) : Prop := t.apart = s.apart ∧ Answered i r .nothing [] s t

/-- Nothing outside the link changed but the reels of the store and the re-find mark, which is `mark` after. -/
def OnlyReels (mark : Bool) (s t : State) : Prop :=
  t.apart = { s with cst := { s.cst with reels := t.cst.reels }, psc := { s.psc with refind := mark } }.apart

/-- Of the reels, only reel `r` changed, to `x`. -/
def OneReel (r : Fin 8) (x : Reel) (s t : State) : Prop := t.reel r = x ∧ ∀ r', r' ≠ r → t.reel r' = s.reel r'

/-- Of the reels, only the cue record in one slot of reel `r` changed, to `c`: no slot became live or free, and the header
and the order list stand as they did. -/
def OneCue (r : Fin 8) (slot : Nat) (c : Cue) (s t : State) : Prop :=
  t.cue r slot = some c ∧ (∀ slot', slot' ≠ slot → t.cue r slot' = s.cue r slot')
    ∧ (t.reel r).cues.map Prod.fst = (s.reel r).cues.map Prod.fst
    ∧ { t.reel r with cues := [] } = { s.reel r with cues := [] } ∧ ∀ r', r' ≠ r → t.reel r' = s.reel r'

/-- The live cue of the edit reel that holds a loop number, with its slot (R27). -/
def State.found (s : State) (loop : BitVec 16) : Option (Nat × Cue) :=
  s.editReel.cues.find? fun p => p.2.loop == loop.toNat

/-- A slot stands in the order list of `new` at the place its key and loop number give among the entries of `old`, which
keep their order (R11). -/
def JoinedOrder (slot : Nat) (old : List Nat) (new : Reel) : Prop :=
  ∃ k ≤ old.length, new.order = old.take k ++ slot :: old.drop k
    ∧ (∀ x ∈ old.take k, new.before slot x = false) ∧ ∀ x ∈ (old.drop k).head?, new.before slot x = true

/-- The header points of a reel are those of its live cues (R2). -/
def PointsOf (r : Reel) : Prop :=
  r.earliest = (r.cues.map fun p => p.2.vals.inPt).min? ∧ r.latest = (r.cues.map fun p => p.2.vals.outPt).max?

/-- Of the reels, only reel `r` changed: the cue in one slot from `c` to `d`. Where its in-point is another the cue has moved
in the order list, and where either frame is another the header points are those of the live cues (R11, R35). -/
def EditedCue (r : Fin 8) (slot : Nat) (c d : Cue) (s t : State) : Prop :=
  t.cue r slot = some d ∧ (∀ slot', slot' ≠ slot → t.cue r slot' = s.cue r slot') ∧ (∀ r', r' ≠ r → t.reel r' = s.reel r')
    ∧ (t.reel r).tag = (s.reel r).tag ∧ (t.reel r).state = (s.reel r).state ∧ (t.reel r).conform = (s.reel r).conform
    ∧ (if d.vals.inPt = c.vals.inPt then (t.reel r).order = (s.reel r).order
       else JoinedOrder slot ((s.reel r).order.erase slot) (t.reel r))
    ∧ if d.vals.inPt = c.vals.inPt ∧ d.vals.outPt = c.vals.outPt then
        (t.reel r).earliest = (s.reel r).earliest ∧ (t.reel r).latest = (s.reel r).latest
      else PointsOf (t.reel r)

/-- The record a pass leaves of its cue, completed or not (R38, R101, R105): the pending edit is applied and removed, and the
cue is READY for a pending disarm, DONE after a completed pass of a ONCE cue, otherwise ARMED as it was. -/
def Cue.afterPass (completed : Bool) (c : Cue) : Cue :=
  let v := c.pending.elim c.vals fun p => p.fields.over c.vals
  { c with
    vals := v, pending := none, waited := c.waited && decide (v.inPt = c.vals.inPt),
    state :=
      match c.state with
      | .passing kind =>
        if c.pending.any (fun p => p.disarm) then .ready
        else if completed && decide (v.mode = .once) then .done
        else .armed kind
      | .ready => .ready
      | .armed kind => .armed kind
      | .done => .done }

/-- A cue record with its waited flag clear: two cues with equal values of it differ in that flag at most. -/
def Cue.unwaited (c : Cue) : Cue := { c with waited := false }

/-- The tone generator of `d` after an event that left the gates of `d`, from its state in `c` (R115, R116): it sounds the
lowest-numbered context whose gate is open; from none it goes high, to none it goes low, and a new context brings its
divider and a count of 0. That the divider keeps its value when nothing sounds any more is the model's choice, which the
rules do not give (log entry 6). -/
def ToneFollows (c d : Ciu) : Prop :=
  (∀ k : Fin 4, d.tone.sounding = some k ↔ d.beats[k].gate = true ∧ ∀ j : Fin 4, j < k → d.beats[j].gate = false)
    ∧ (d.tone.sounding = c.tone.sounding → d.tone = c.tone)
    ∧ (d.tone.sounding = none → c.tone.sounding ≠ none →
        d.tone.level = false ∧ d.tone.count = none ∧ d.tone.divider = c.tone.divider)
    ∧ ∀ k : Fin 4, d.tone.sounding = some k → c.tone.sounding ≠ some k →
        d.tone.count = some 0 ∧ d.tone.divider = d.beats[k].divider
        ∧ d.tone.level = if c.tone.sounding.isSome then c.tone.level else true

/-- The current beat and gate found at a tick for a start frame and the count-in values of a cue (R109, R111). -/
def BeatFound (start : Nat) (c : CountIn) (t : Nat) (b : Beat) : Prop :=
  (∀ j : Nat, b.current = some j ↔
      1 ≤ j ∧ j ≤ c.beeps ∧ c.beatFrame j * 80 ≤ (t : Int) ∧ t < c.inPt * 80
        ∧ ∀ i : Nat, j < i → i ≤ c.beeps → (t : Int) < c.beatFrame i * 80)
    ∧ (b.gate = true ↔ ∃ j : Fin 5, b.current = some j.val ∧ 0 ≤ c.beatFrame j.val ∧ (start : Int) ≤ c.beatFrame j.val
        ∧ (t : Int) < c.beatFrame j.val * 80 + c.onTime)

/-- The transfer of a context entry (R136, R137): the lines that moved, the punch report and the PUNCH notice. -/
def Transferred (j : Fin 4) (e : Staged) (s t : State) : Prop :=
  ∃ set : LineSet,
    (∀ k : Fin 8, inSet k set =
        match e.action with
        | .punchIn => inSet k e.lines && decide (s.pch.lines[k].mode = .cue ∧ s.pch.lines[k].owner = .nobody
            ∧ s.pch.unit = .normal)
        | .punchOut => decide (s.pch.lines[k].owner = .context j))
    ∧ (∀ k : Fin 8, t.pch.lines[k] =
        if inSet k set then
          match e.action with
          | .punchIn => { s.pch.lines[k] with owner := .context j, isIn := true }
          | .punchOut => { s.pch.lines[k] with owner := .nobody, isIn := false }
        else s.pch.lines[k])
    ∧ t.apart = { s with
        pch := { s.pch with lines := t.pch.lines },
        raised := s.raised ++ [Instr.punchReport { ctx := j, loop := e.loop, action := e.action, lines := set }] }.apart
    ∧ match e.action with
      | .punchIn => Noticed [.punch (.context j) set 0 (e.lines &&& ~~~set)] s t
      | .punchOut => Noticed [.punch (.context j) 0 set 0] s t

/-- The lines that the transfer of a manual entry moves (R140). -/
def ManualMoves (e : ManualEntry) (p : Pch) (k : Fin 8) : Bool :=
  inSet k e.lines && decide (p.lines[k].mode = .manual ∧ p.lines[k].owner = if e.action = .punchIn then .nobody else .manual)

/-- The line records after the transfer of a manual entry (R140). -/
def ManualMoved (e : ManualEntry) (p q : Pch) : Prop :=
  ∀ k : Fin 8, q.lines[k] =
    if ManualMoves e p k then
      { p.lines[k] with owner := if e.action = .punchIn then .manual else .nobody, isIn := decide (e.action = .punchIn) }
    else p.lines[k]

/-- The PUNCH notice of the transfer of a manual entry (R140). -/
def manualNotice (e : ManualEntry) (p : Pch) : Notice :=
  let moved := setOf (ManualMoves e p)
  .punch .manual (if e.action = .punchIn then moved else 0) (if e.action = .punchIn then 0 else moved)
    (setOf fun k => inSet k e.lines && decide (p.lines[k].mode = .cue))

/-! ## Order lists, the pointer -/

/-- The order list of a reel runs in strictly rising order of ordering key and loop number (R9). -/
def Reel.sorted (r : Reel) : Bool := decide (r.order.Pairwise fun a b => r.before a b = true)

/-- No two live cues of a reel hold the same loop number (R9). -/
def Reel.loopsDistinct (r : Reel) : Bool := decide (r.cues.map fun p => p.2.loop).Nodup

/-- The in-points of the live cues of a reel, in slot order. -/
def Reel.inPoints (r : Reel) : List Nat := r.cues.map fun p => p.2.vals.inPt

/-- The out-points of the live cues of a reel, in slot order. -/
def Reel.outPoints (r : Reel) : List Nat := r.cues.map fun p => p.2.vals.outPt

/-- An event that applied pending edits to cues of a reel turned it from `x` into `y` (R2, R9, R11, R38): the order list holds
the slots it held, stays sorted, and is as it was where no in-point is another; where an in-point or out-point is another
the header points are those of the live cues. -/
def ReelSettled (x y : Reel) : Prop :=
  y.order.Perm x.order ∧ (x.sorted = true → x.loopsDistinct = true → y.sorted = true)
    ∧ (y.inPoints = x.inPoints → y.order = x.order) ∧ y.tag = x.tag ∧ y.conform = x.conform
    ∧ if y.inPoints = x.inPoints ∧ y.outPoints = x.outPoints then y.earliest = x.earliest ∧ y.latest = x.latest else PointsOf y

/-- Whether the pointer is re-found at an edge: it is unset, the mark is set, the edge carries the jump or the resume mark,
or picture crosses midnight (R88). -/
def RefoundAt (e : FrameEdge) (rate : Rate) (pointer : Option Nat) (mark : Bool) : Prop :=
  pointer = none ∨ mark = true ∨ e.jump = true ∨ e.resume = true ∨ (e.dir = .forward ∧ e.n = 0)
    ∨ (e.dir = .reverse ∧ e.n + 1 = rate.fDay)

/-- Step 2 of R91 at an edge (R86 to R89): with the play reel `x`, the waited flags `waited`, the pointer and the mark before
it, the pointer it leaves is `q`, the cues it tests are those in the slots `tested`, and it raises `ns`. Re-found, the
pointer stands before the first cue whose key is above N and every ARMED cue inside its line raises LATE_START; moved
forward, every ARMED cue it passes raises NO_CONTEXT or NOT_ENTERED; moved back, nothing is raised. -/
def PointerWork (e : FrameEdge) (rate : Rate) (x : Reel) (waited : Nat → Bool) (pointer : Option Nat) (mark : Bool)
    (q : Nat) (tested : List Nat) (ns : List Notice) : Prop :=
  let n : Int := e.n
  let armed (c : Cue) : Bool := match c.state with
    | .armed _ => true
    | .ready | .passing _ | .done => false
  let shift (c : Cue) : Int := if c.conformPending then x.delta else 0
  let inside (c : Cue) : Bool := decide (c.vals.inPt + shift c ≤ n ∧ n < c.vals.outPt + shift c)
  (RefoundAt e rate pointer mark →
    q ≤ x.order.length ∧ (∀ slot ∈ x.order.take q, x.key slot ≤ n) ∧ (∀ slot ∈ (x.order.drop q).head?, n < x.key slot)
    ∧ tested = x.order.take q
    ∧ ns = tested.filterMap fun slot => (x.cue slot).bind fun c =>
        if armed c && inside c then some (.missed c.loop .lateStart) else none)
  ∧ (¬ RefoundAt e rate pointer mark → ∀ p : Nat, pointer = some p → p ≤ x.order.length →
    (e.dir = .forward → p ≤ q ∧ q ≤ x.order.length ∧ tested = (x.order.drop p).take (q - p)
      ∧ (∀ slot ∈ tested, x.key slot ≤ n) ∧ (∀ slot ∈ (x.order.drop q).head?, n < x.key slot)
      ∧ ns = tested.filterMap fun slot => (x.cue slot).bind fun c =>
          if armed c then some (.missed c.loop (if waited slot then .noContext else .notEntered)) else none)
    ∧ (e.dir = .reverse → q ≤ p ∧ (∀ slot ∈ (x.order.take p).drop q, n < x.key slot)
      ∧ (∀ slot ∈ (x.order.take q).getLast?, x.key slot ≤ n) ∧ tested = [] ∧ ns = []))

/-- Whether a pass closes at a running edge of frame `n`: at X, or across midnight from its TAIL at X − F_day (R85, R96, log
entry 16). -/
def Ctx.closesOn (rate : Rate) (n : Nat) (c : Ctx) : Bool :=
  if c.close < rate.fDay then decide (n = c.close) else decide (n = c.close - rate.fDay ∧ c.phase = .tail)

/-- The phase of a pass on a running edge of frame `n` that does not close it (R96). A pass whose close lies beyond midnight
stays in TAIL once it is there, and on a frame of none of the ranges the phase stays (log entry 16). -/
def Ctx.phaseOn (rate : Rate) (n : Nat) (v : CueVals) (c : Ctx) : Phase :=
  if rate.fDay ≤ c.close ∧ c.phase = .tail then .tail
  else if c.entry ≤ n ∧ n < v.inPt then .lead
  else if v.inPt ≤ n ∧ n < v.outPt then .line
  else if v.outPt ≤ n ∧ n < c.close then .tail
  else c.phase

/-- What a running edge does to one pass in flight. -/
structure PassWork where
  /-- The context after the work, absent where the pass closed. -/
  stays : Option Ctx
  /-- The cue after the work, apart from its waited flag. -/
  cue : Cue
  /-- The notices raised, in order. -/
  notices : List Notice
  /-- The events handed to other blocks, in order. -/
  events : List Instr
  deriving DecidableEq, Repr

/-- The work of step 3 of R91 on the pass of context `k` at a running edge of frame `n` (R96, R97, R99 to R102). Before its
in-point a RECORD pass in LEAD reserves a take and stages its punch-in, or turns REHEARSE with TAKES_FULL (R97, R150); before
its out-point it stages its punch-out, without lines (R99, log entry 29); at the out-point its OPEN take is closed with the
lines held, those released by the punch-out of the edge among them (R100, R152, log entry 23); at its close the cue is
settled, PASS_END raised and the context freed (R101). -/
def Ctx.workOn (rate : Rate) (n : Nat) (k : Fin 4) (c : Ctx) (cue : Cue) : PassWork :=
  let v := cue.vals
  let closes := c.closesOn rate n
  let phase := if closes then c.phase else c.phaseOn rate n v
  let record := decide (c.kind = .record)
  let staging := record && decide (n + 1 = v.inPt ∧ phase = .lead)
  let room := decide (cue.nextTake < 100) && !(decide (6 ≤ cue.takes.length) && cue.takes.all fun x => x.circled)
  let outing := record && !staging
  let newTake : Take :=
    { number := cue.nextTake, result := .opened, lines := 0, late := c.late, guardTripped := false, offset := none,
      circled := false }
  let punched := c.held ||| c.released
  let shut (x : Take) : Take :=
    if c.take = some x.number ∧ x.result = .opened then
      { x with
        lines := punched
        result :=
          if x.guardTripped then .guarded
          else if ∀ l : Fin 8, inSet l v.lines = true → inSet l punched = true then .complete
          else .partialLines }
    else x
  let worked : Cue :=
    if staging && room then { cue with
      nextTake := cue.nextTake + 1
      takes := (if 6 ≤ cue.takes.length then cue.takes.eraseP (fun x => !x.circled) else cue.takes) ++ [newTake] }
    else if outing && decide (n = v.outPt) then { cue with takes := cue.takes.map shut }
    else cue
  let take := if staging && room then some cue.nextTake else c.take
  { stays :=
      if closes then none
      else some { c with phase := phase, kind := if staging && !room then .rehearse else c.kind, take := take }
    cue := if closes then worked.afterPass true else worked
    notices := (if staging && !room then [.takesFull c.loop] else [])
      ++ if closes then
        [.passEnd k c.reel c.loop .completed c.phase (take.bind fun m => worked.takes.find? fun x => decide (x.number = m))]
      else []
    events := (if staging && room then
        [Instr.stageRequest { ctx := k, loop := c.loop, action := .punchIn, lines := v.lines, target := v.inPt }] else [])
      ++ (if outing && decide (n + 1 = v.outPt) then
        [Instr.stageRequest { ctx := k, loop := c.loop, action := .punchOut, lines := 0, target := v.outPt }] else [])
      ++ if closes then [Instr.freeHandover k] else [] }

/-! ## The laws of the blocks -/

/-- The law of a punch line (R129): in exactly while it has an owner, a context only in CUE mode, manual control only
in MANUAL mode. -/
def Line.lawful (l : Line) : Bool :=
  match l.owner with
  | .nobody => !l.isIn
  | .context _ => l.isIn && decide (l.mode = .cue)
  | .manual => l.isIn && decide (l.mode = .manual)

/-- The law of the Punch Unit (R129, R142): every line keeps its law, and while the unit is GUARDED every line is out
and no manual entry is staged. -/
def Pch.lawful (p : Pch) : Bool :=
  (allLines.all fun k => p.lines[k].lawful)
    && (decide (p.unit = .normal) || ((allLines.all fun k => !p.lines[k].isIn) && p.manual.isNone))

/-- The law of a message in progress (R166): a body of 1 to 64 bytes, not yet whole in BODY, whole in CHECK. -/
def Rx.lawful : Rx → Bool
  | .hunting => true
  | .length => true
  | .body len got => decide (len.toNat ≤ 64) && decide (got.length < len.toNat)
  | .check len got => decide (1 ≤ len.toNat) && decide (len.toNat ≤ 64) && decide (got.length = len.toNat)

/-- Whether a place is the held command's. -/
def Place.isOwner : Place → Bool
  | .owner _ => true
  | .link _ => false

/-- Whether a place is the held command's and still empty. -/
def Place.isEmpty : Place → Bool
  | .owner none => true
  | .owner (some _) => false
  | .link _ => false

/-- The law of the Command Link (R169, R171, R173): at most 24 notices and three answers of its own wait; one place,
in the list or on LINK TX, belongs to the held command and none without one, and it is empty exactly until the
owner has taken the command. -/
def Link.lawful (l : Link) : Bool :=
  l.rx.lawful && decide (l.notices.length ≤ 24) && decide (l.ownAnswers ≤ 3)
    && decide (l.placesHeld.countP Place.isOwner = if l.held.isSome then 1 else 0)
    && decide (l.placesHeld.countP Place.isEmpty = if l.held.any (fun h => !h.taken) then 1 else 0)

/-- The law of the position (R70, Table 4-4, R80). -/
def Pos.lawful (p : Pos) : Bool :=
  decide (p.n < p.rate.fDay) && decide (p.b ≤ 79) && decide (p.limit ≤ 30) &&
    match p.state with
    | .unknown =>
      decide (p.n = 0) && decide (p.b = 0) && decide (p.dir = .forward) && p.period.isNone && !p.mark && decide (p.count = 0)
    | .locked => p.period.isSome && decide (p.count = 0)
    | .freewheel => p.period.isSome && decide (1 ≤ p.count) && decide (p.count ≤ 30)
    | .stopped => decide (p.b = 0) && p.period.isNone && !p.mark && decide (p.count = 0)

/-- The law of the tone generator (R115, R116): it sounds the lowest-numbered context whose gate is open, and with
none it is low and its count stopped; a gate is open only on a context in use with a current beat (R111). -/
def Ciu.lawful (c : Ciu) : Bool :=
  decide (c.tone.sounding = lowestOpen c.beats)
    && (if c.tone.sounding.isSome then c.tone.count.isSome else !c.tone.level && c.tone.count.isNone)
    && allCtx.all fun k => !c.beats[k].gate || (c.beats[k].start.isSome && c.beats[k].current.isSome)

/-- The law of the takes of a cue (R149): at most six, with distinct rising numbers below the next take number, which
is 1 to 100. -/
def Cue.takesLawful (c : Cue) : Bool :=
  decide (c.takes.length ≤ 6) && decide (1 ≤ c.nextTake) && decide (c.nextTake ≤ 100)
    && decide ((c.takes.map fun t => t.number).Pairwise (· < ·))
    && c.takes.all fun t => decide (1 ≤ t.number) && decide (t.number < c.nextTake)

/-- The law of a reel (R1, R9, R149): live slots below 160 in rising order, the order list holding each exactly once,
and every cue keeping the law of its takes. -/
def Reel.lawful (r : Reel) : Bool :=
  decide ((r.cues.map Prod.fst).Pairwise (· < ·)) && (r.cues.all fun p => decide (p.1 < 160) && p.2.takesLawful)
    && decide (r.order.Perm (r.cues.map Prod.fst))

/-- Every reel keeps its law. -/
def CueStore.lawful (c : CueStore) : Bool := allReels.all fun r => c.reels[r].lawful

/-- The law of the pass contexts (R83): an ACTIVE context serves a PASSING cue of the play reel under that cue's loop
number, no two serve the same cue, and every PASSING cue is served by one. -/
def State.PassesLawful (s : State) : Prop :=
  (∀ k c, s.ctx k = some c →
      c.reel = s.cst.playReel ∧ ∃ cue, s.cue c.reel c.slot = some cue ∧ cue.state.isPassing = true ∧ cue.loop = c.loop)
    ∧ (∀ j k c d, s.ctx j = some c → s.ctx k = some d → c.slot = d.slot → j = k)
    ∧ ∀ r slot cue, s.cue r slot = some cue → cue.state.isPassing = true →
        ∃ k c, s.ctx k = some c ∧ c.reel = r ∧ c.slot = slot

/-- The law of the pending play reel (R7, R8): it is present only while a context is ACTIVE. -/
def State.PendingKept (s : State) : Prop := s.cst.pendingPlay.isSome = true → ∃ k : Fin 4, (s.ctx k).isSome = true

/-- The law of the frames of a pass (R84, R85, R94): while it runs, its entry frame and close frame are those that the in-use
values of its cue give. -/
def State.FramesKept (s : State) : Prop :=
  ∀ (k : Fin 4) (c : Ctx) (cue : Cue), s.ctx k = some c → s.cue c.reel c.slot = some cue →
    c.entry = cue.vals.inPt - max (cue.vals.beeps * cue.vals.spacing) (max cue.vals.streamer 1)
      ∧ c.close = cue.vals.outPt + cue.vals.tail

/-- The law of the next-cue pointer (R86): unless the re-find mark is set, it is unset or a position in the order list of the
play reel, from 0 to its cue count. -/
def State.PointerKept (s : State) : Prop :=
  ∀ p : Nat, s.psc.pointer = some p → s.psc.refind = true ∨ p ≤ s.playReel.order.length

/-- The law of the count-in values that the Count-In Unit holds (R13, log entry 8): at most four beeps. -/
def State.BeepsKept (s : State) : Prop :=
  ∀ (k : Fin 4) (c : CountIn), s.ciu.beats[k].cue = some c → c.beeps ≤ 4

/-! ## The laws of the reels (R4, R9, R12, R13, R14, R19, R57, R151) -/

/-- The ranges a stored record holds (Table 1-6), with the frame law of R12 at a rate. -/
def CueVals.lawful (rate : Rate) (v : CueVals) : Bool :=
  decide (v.inPt < v.outPt) && decide (v.outPt ≤ rate.fDay - 1) && decide (v.beeps ≤ 4) && decide (6 ≤ v.spacing)
    && decide (v.spacing ≤ 60) && decide (v.onTime ≤ v.spacing * 80) && decide (23 ≤ v.tone) && decide (v.tone ≤ 239)
    && (decide (v.streamer = 0) || (decide (12 ≤ v.streamer) && decide (v.streamer ≤ 240))) && decide (v.colour ≤ 7)
    && decide (v.tail ≤ 240)

/-- Both frames of a cue moved by a delta lie within the day (R48). -/
def CueVals.movesInDay (rate : Rate) (delta : Int) (v : CueVals) : Bool :=
  decide (0 ≤ (v.inPt : Int) + delta) && decide ((v.outPt : Int) + delta ≤ (rate.fDay : Int) - 1)

/-- The law of a cue record (R12 to R14, R19, R38, R57): its loop number and values lie in their ranges, now and once its
pending edit is applied; a pending edit is on a PASSING cue; a conform-pending cue is not PASSING. -/
def Cue.lawful (rate : Rate) (c : Cue) : Bool :=
  decide (1 ≤ c.loop) && decide (c.loop ≤ 9999) && c.vals.lawful rate && c.settledVals.lawful rate
    && (c.pending.isNone || c.state.isPassing) && !(c.conformPending && c.state.isPassing)

/-- The law of the conform record of a reel (Section 1.1.2, R47, R50): a shift has reached the cues before its cursor and has
flagged those from it on, each of which stays within the day when it is moved; a copy has made as many cues as its cursor
says; without a shift no cue is flagged. -/
def Reel.conformLawful (rate : Rate) (r : Reel) : Bool :=
  match r.conform with
  | none => r.cues.all fun p => !p.2.conformPending
  | some { op := .shift, delta, cursor } =>
    decide (cursor < r.order.length)
      && ((r.order.take cursor).all fun slot => (r.cue slot).all fun c => !c.conformPending)
      && ((r.order.drop cursor).all fun slot => (r.cue slot).all fun c => c.conformPending && c.vals.movesInDay rate delta)
  | some { op := .copy _, cursor, .. } => (r.cues.all fun p => !p.2.conformPending) && decide (r.cues.length = cursor)

/-- Whether a conform has begun on a reel and has not ended: the reel is CONFORMING or PARTIAL (Table 1-2). -/
def ReelState.midConform : ReelState → Bool
  | .conforming => true
  | .partly => true
  | .empty | .opened | .locked => false

/-- The law of a reel (R2, R4, R9, R12, R57): distinct loop numbers, a sorted order list, lawful records; an EMPTY reel holds
no cue, an OPEN or LOCKED one holds some; a conform record stands exactly on a CONFORMING or PARTIAL reel, which holds no
PASSING cue; on the others the header points are those of the live cues; a pending edit on a LOCKED reel names no
frame. -/
def Reel.kept (rate : Rate) (r : Reel) : Bool :=
  r.lawful && r.sorted && r.loopsDistinct && (r.cues.all fun p => p.2.lawful rate) && r.conformLawful rate
    && decide (r.conform.isSome = r.state.midConform)
    && (!r.state.midConform || !r.anyPassing)
    && (r.state.midConform || (decide (r.earliest = r.inPoints.min?) && decide (r.latest = r.outPoints.max?)))
    && match r.state with
      | .empty => r.cues.isEmpty
      | .opened => !r.cues.isEmpty
      | .locked => !r.cues.isEmpty && !r.framesPending
      | .conforming | .partly => true

/-- The law of a copy between its two reels (R52, R54, R57): the source is LOCKED, another reel, with cues still to come, each
within the day when it is moved, and the loop numbers of the destination are those of the source cues copied. -/
def State.CopyKept (s : State) (dest source : Fin 8) (delta : Int) (cursor : Nat) : Prop :=
  source ≠ dest ∧ (s.reel source).state = .locked ∧ cursor < (s.reel source).order.length
    ∧ (∀ p ∈ (s.reel source).cues, p.2.vals.movesInDay s.pos.rate delta = true)
    ∧ ∀ p ∈ (s.reel dest).cues, ∃ slot ∈ (s.reel source).order.take cursor, (s.reel source).loopAt slot = p.2.loop

/-- The law of the reels together (R4, R9, R12, R47, R57): every reel keeps its own, every copy keeps its own, a source is
LOCKED for one copy, and the operation in hand is the conform record of the one CONFORMING reel. -/
def State.ReelsKept (s : State) : Prop :=
  (∀ r : Fin 8, (s.reel r).kept s.pos.rate = true)
    ∧ (∀ (r source : Fin 8) (c : ConformRecord), (s.reel r).conform = some c → c.op = .copy source →
        s.CopyKept r source c.delta c.cursor)
    ∧ (∀ (r r' source : Fin 8) (c d : ConformRecord), (s.reel r).conform = some c → (s.reel r').conform = some d →
        c.op = .copy source → d.op = .copy source → r = r')
    ∧ (∀ source : Fin 8, (s.reel source).state = .locked →
        ∃ r : Fin 8, (s.reel r).conform.map (fun c => c.op) = some (.copy source))
    ∧ (∀ r : Fin 8, (s.reel r).state = .conforming ↔ s.cfu.map (fun op => op.target) = some r)
    ∧ ∀ op : Operation, s.cfu = some op →
        (s.reel op.target).conform = some { op := op.op, delta := op.delta, cursor := op.cursor }

/-- The law of OPEN takes (R151): an OPEN take is the one named by the context that serves its cue, in a RECORD pass. -/
def State.TakesKept (s : State) : Prop :=
  ∀ (r : Fin 8) (slot : Nat) (cue : Cue) (x : Take), s.cue r slot = some cue → x ∈ cue.takes → x.result = .opened →
    ∃ (k : Fin 4) (c : Ctx), s.ctx k = some c ∧ c.reel = r ∧ c.slot = slot ∧ c.kind = .record ∧ c.take = some x.number

/-- A running edge of frame `n` meets the passes in flight as edges of rising frames do (R77, R96): a pass at its staging edge
has reserved no take, and one whose take is OPEN does not close before its out-point edge. -/
def State.MetInOrder (n : Nat) (s : State) : Prop :=
  ∀ (k : Fin 4) (c : Ctx) (cue : Cue), s.ctx k = some c → s.cue c.reel c.slot = some cue →
    (n + 1 = cue.vals.inPt → c.take = none)
    ∧ ((∃ x ∈ cue.takes, c.take = some x.number ∧ x.result = .opened) → c.closesOn s.pos.rate n = true → n = cue.vals.outPt)

end Sys2Proof.Machine
end

