-- ==== Sys2Proof/Certificates/Slice0/Obligations.lean ====
section
/-! DEFINITION. The statements for the provers. Each docstring names the rules a statement formalises, and the log entries of
the model's own choices it rests on. Two fields that statements read are the model's bookkeeping: `lastAnswer`, the last
answer an owner made (log entry 2), and `raised`, the events handed to another block and not yet taken (log entry 1). -/

open Sys2Proof Sys2Proof.Machine

/-! ## The step, the resets -/

/-- The command at the front of the queue is taken with the rest of the queue behind it; on an empty queue the part
idles (the model's choice, log entry 10). -/
def Obligations.StepTakesTheFrontCommand : Prop :=
  (∀ (c : Instr) (rest : List Instr) (s : State),
      step { s with pending := c :: rest } = exec c { s with pending := rest })
    ∧ ∀ s : State, step { s with pending := [] } = .next { s with pending := [] }

/-- Every command and event gives a next state, and none touches the queue of waiting commands. This is the model's choice:
R172 says that a refused command is answered and changes nothing, and the spec names no event after which the part stops,
from which log entry 22 reads that none does; that commands wait in a queue beside the part is log entry 10. -/
def Obligations.EveryCommandGoesOn : Prop :=
  ∀ (i : Instr) (s : State), ∃ t, exec i s = .next t ∧ t.pending = s.pending

/-- What COLD_RESET leaves, block by block (R23, R47, R82, R108, R117, R128, R147, R163, R178). The board's levels stay
(log entry 5). -/
def Obligations.ColdResetLeaves : Prop :=
  ∀ s : State, ∃ t, exec .coldReset s = .next t
    ∧ (∀ r : Fin 8, t.reel r = { tag := 0, state := .empty, cues := [], order := [], earliest := none,
                                 latest := none, conform := none })
    ∧ t.cst.playReel = 0 ∧ t.cst.editReel = 0 ∧ t.cst.pendingPlay = none ∧ t.editReel.freeSlot = some 0
    ∧ t.cfu = none
    ∧ t.lnk = { rx := .hunting, held := none, answers := [], notices := [], wire := none, overrun := false }
    ∧ t.pos = { rate := .fps24, limit := 5, state := .unknown, n := 0, b := 0, dir := .forward, period := none
                mark := false, count := 0, mismatch := false }
    ∧ (∀ k : Fin 4, t.ctx k = none) ∧ t.psc.pointer = none ∧ t.psc.refind = false
    ∧ (∀ k : Fin 4, t.ciu.beats[k] = { start := none, cue := none, current := none, gate := false })
    ∧ t.ciu.last = none ∧ t.ciu.tone.sounding = none ∧ t.ciu.tone.count = none ∧ t.ciu.tone.level = false
    ∧ t.ovl = { flash := 1, quiet := true, wire := none, waiting := none }
    ∧ (∀ k : Fin 8, t.pch.lines[k] = { mode := .manual, activeLow := false, owner := .nobody, isIn := false }
        ∧ t.punchOut k = false)
    ∧ (∀ k : Fin 4, t.pch.staged[k] = none) ∧ t.pch.manual = none ∧ t.pch.lastEdge = none ∧ t.pch.view = .unknown
    ∧ t.pch.unit = (if s.board.guardHigh then .normal else .guarded)
    ∧ t.vgt = { qualify := 8, allowance := 12, level := s.vgt.level, last := none, run := .idle, start := none, count := 0 }
    ∧ t.board = s.board

/-- What WARM_RESET leaves outside the cue records (R24, R58, R82, R108, R117, R128, R147, R163, R178), and what RESET_RELEASE
does in every state: RESET rising, the link starts with its reset values, so that a notice raised while the line was held
is not sent (R178); with RESET high there is nothing to end. That untaken events are lost and that the line is held low
until RESET_RELEASE is the model's reading (log entries 7, 18, 20). -/
def Obligations.WarmResetLeaves : Prop :=
  ∀ (byLine : Bool) (s : State),
    (s.board.resetLow = true → exec .resetRelease s = .next { s with
      lnk := { rx := .hunting, held := none, answers := [], notices := [], wire := none, overrun := false }
      board := { s.board with resetLow := false } })
    ∧ (s.board.resetLow = false → exec .resetRelease s = .next s)
    ∧ ∃ t, exec (.warmReset byLine) s = .next t
    ∧ t.lnk = { rx := .hunting, held := none, answers := [], notices := [], wire := none, overrun := false }
    ∧ t.pos = { rate := s.pos.rate, limit := s.pos.limit, state := .unknown, n := 0, b := 0, dir := .forward,
                period := none, mark := false, count := 0, mismatch := false }
    ∧ (∀ r : Fin 8, (t.reel r).tag = (s.reel r).tag ∧ (t.reel r).count = (s.reel r).count
        ∧ (t.reel r).conform = (s.reel r).conform
        ∧ (t.reel r).state = if s.cfu.any (fun op => decide (op.target = r)) then .partly else (s.reel r).state)
    ∧ t.cst.playReel = s.cst.playReel ∧ t.cst.editReel = s.cst.editReel ∧ t.cst.pendingPlay = none ∧ t.cfu = none
    ∧ (∀ k : Fin 4, t.ctx k = none) ∧ t.psc.pointer = none ∧ t.psc.refind = false
    ∧ (∀ k : Fin 4, t.ciu.beats[k] = { start := none, cue := none, current := none, gate := false })
    ∧ t.ciu.last = none ∧ t.ciu.tone.sounding = none ∧ t.ciu.tone.count = none ∧ t.ciu.tone.level = false
    ∧ t.ovl = { flash := s.ovl.flash, quiet := true, wire := none, waiting := none }
    ∧ (∀ k : Fin 8, t.pch.lines[k] = { mode := s.pch.lines[k].mode, activeLow := s.pch.lines[k].activeLow,
                                       owner := .nobody, isIn := false } ∧ t.punchOut k = s.pch.lines[k].activeLow)
    ∧ (∀ k : Fin 4, t.pch.staged[k] = none) ∧ t.pch.manual = none ∧ t.pch.lastEdge = none ∧ t.pch.view = .unknown
    ∧ t.pch.unit = (if s.board.guardHigh then .normal else .guarded)
    ∧ t.vgt = { qualify := s.vgt.qualify, allowance := s.vgt.allowance, level := s.vgt.level, last := none, run := .idle,
                start := none, count := 0 }
    ∧ t.raised = [] ∧ t.board = { s.board with resetLow := s.board.resetLow || byLine }
    ∧ ∃ u, exec .resetRelease t = .next u ∧ u = { t with board := { t.board with resetLow := false } }

/-- What a warm reset makes of every cue record and its takes (R24, R164): the pending edit applied, PASSING ended, OPEN
takes ABORTED with the lines held by the context that serves the cue, the waited flag cleared, the rest kept; and of every
order list and header, which follow the edits applied (R2, R11, R38). -/
def Obligations.WarmResetSettlesCues : Prop :=
  ∀ (byLine : Bool) (s : State), s.cst.lawful = true → ∃ t, exec (.warmReset byLine) s = .next t
    ∧ (∀ r : Fin 8, ReelSettled (s.reel r) (t.reel r))
    ∧ ∀ (r : Fin 8) (slot : Nat),
      (s.cue r slot = none → t.cue r slot = none)
      ∧ ∀ c, s.cue r slot = some c → t.cue r slot = some
        { c with
          vals := c.pending.elim c.vals fun p => p.fields.over c.vals
          waited := false
          state := if c.state.isPassing then (if c.pending.any (fun p => p.disarm) then .ready else .armed (c.state.kind.getD .rehearse)) else c.state
          takes := c.takes.map fun x => if x.result = .opened then { x with result := .aborted, lines := s.heldFor r slot } else x
          pending := none }

/-! ## The Command Link -/

/-- The receiver in HUNTING, LENGTH and BODY (R166); 213 is above 64, so a start byte is no length. The gap timer and a framing
error drop the message in progress (R165, R167), and a byte is discarded while RESET is held low (R178). -/
def Obligations.ReceiverFollowsItsStates : Prop :=
  64 < (0xD5 : Byte).toNat
  ∧ (∀ (b : Byte) (s : State), s.board.resetLow = false →
    (s.lnk.rx = .hunting → exec (.rxByte b false) s
        = .next { s with lnk := { s.lnk with rx := if b = 0xD5 then .length else .hunting } })
    ∧ (s.lnk.rx = .length → exec (.rxByte b false) s
        = .next { s with lnk := { s.lnk with rx := if 1 ≤ b.toNat ∧ b.toNat ≤ 64 then .body b [] else .hunting } })
    ∧ (∀ len got, s.lnk.rx = .body len got → got.length + 1 < len.toNat → exec (.rxByte b false) s
        = .next { s with lnk := { s.lnk with rx := .body len (got ++ [b]) } })
    ∧ (∀ len got, s.lnk.rx = .body len got → got.length + 1 = len.toNat → exec (.rxByte b false) s
        = .next { s with lnk := { s.lnk with rx := .check len (got ++ [b]) } })
    ∧ exec (.rxByte b true) s = .next { s with lnk := { s.lnk with rx := .hunting } })
  ∧ (∀ s : State, exec .gapTimerExpiry s = .next { s with lnk := { s.lnk with rx := .hunting } })
  ∧ ∀ (b : Byte) (e : Bool) (s : State), s.board.resetLow = true → exec (.rxByte b e) s = .next s

/-- A complete message is judged in the order of R168, and an answer of the link's own is placed as R171 says, or
discarded with the overrun flag set when three wait; a command that passes is held for its owner, which some command of the
table names, and its place is empty (R170). No other block is touched. -/
def Obligations.MessagesAreJudgedInOrder : Prop :=
  (∀ k : Byte, 0x80 ≤ k.toNat → isCommandKind k = false) ∧
  ∀ (b len : Byte) (got : List Byte) (s : State), s.board.resetLow = false → s.lnk.rx = .check len got →
    ∃ t, exec (.rxByte b false) s = .next t ∧ t.apart = s.apart ∧ t.lnk.rx = .hunting
      ∧ t.lnk.noticesHeld = s.lnk.noticesHeld
      ∧ (let kind := got.headD 0
         let own (r : Result) (k : Byte) : Prop :=
           t.lnk.held = s.lnk.held ∧ t.lastAnswer = s.lastAnswer
           ∧ if s.lnk.ownAnswers < 3
             then t.lnk.placesHeld = s.lnk.placesHeld ++ [.link { result := r, kind := k }] ∧ t.lnk.overrun = s.lnk.overrun
             else t.lnk.placesHeld = s.lnk.placesHeld ∧ t.lnk.overrun = true
         if len + byteSum got + b ≠ 0 then own .linkError 0
         else if s.lnk.held.isSome then own .overrun kind
         else if isCommandKind kind = false then own .unknownKind kind
         else if lengthAllowed got = false then own .badLength kind
         else (commandOf got).isSome = true ∧ t.lnk.held = some { body := got, taken := false }
           ∧ t.lnk.placesHeld = s.lnk.placesHeld ++ [.owner none] ∧ t.lnk.overrun = s.lnk.overrun
           ∧ t.lastAnswer = s.lastAnswer)

/-- A command whose frame comes byte by byte, with no command held, is held and has its place in the answer list: R166,
R168, R169 and R171 over a whole message of Table 10-1. -/
def Obligations.FramedCommandBecomesHeld : Prop :=
  ∀ (i : Instr) (body : List Byte) (s : State), s.board.resetLow = false → s.lnk.rx = .hunting → s.lnk.held = none →
    body.length ≤ 64 → isCommandKind (body.headD 0) = true → lengthAllowed body = true → commandOf body = some i →
    Host.Core.run Sys2Proof.core (body.length + 3)
        { s with pending := (frameBytes body).map fun b => .rxByte b false }
      = .next { s with pending := [], lnk := { s.lnk with held := some { body := body, taken := false },
                                                           answers := s.lnk.answers ++ [.owner none] } }

/-- The end of a message on LINK TX: with an owner's answer the held command is released (R169), and the transmitter
chooses the filled answer at the head of the list, else the oldest notice, else nothing (R175). After the RESTART
answer a warm reset follows (R177). -/
def Obligations.TransmitterChooses : Prop :=
  ∀ (m : Message) (s : State), s.board.resetLow = false → s.lnk.wire = some m →
    (∀ a, m = .answer a → a.kind = 0x02 → exec .txMessageEnd s = exec (.warmReset false) s)
    ∧ ((∀ a, m = .answer a → a.kind ≠ 0x02) →
      ∃ t, exec .txMessageEnd s = .next t ∧ t.apart = s.apart ∧ t.lastAnswer = s.lastAnswer
        ∧ t.lnk.rx = s.lnk.rx ∧ t.lnk.overrun = s.lnk.overrun
        ∧ ((∃ a, m = .answer a) → t.lnk.held = none) ∧ ((∀ a, m ≠ .answer a) → t.lnk.held = s.lnk.held)
        ∧ (∀ a rest, s.lnk.answers = .owner (some a) :: rest →
            t.lnk.wire = some (.answer a) ∧ t.lnk.answers = rest ∧ t.lnk.notices = s.lnk.notices)
        ∧ (∀ a rest, s.lnk.answers = .link a :: rest →
            t.lnk.wire = some (.linkAnswer a) ∧ t.lnk.answers = rest ∧ t.lnk.notices = s.lnk.notices)
        ∧ (s.lnk.answers.head?.all Place.isEmpty = true → t.lnk.answers = s.lnk.answers
            ∧ t.lnk.wire = s.lnk.notices.head?.map .notice ∧ t.lnk.notices = s.lnk.notices.tail))

/-- A notice joins the tail of the queue, and one raised while 24 wait is discarded with the overrun flag set (R173,
R174). Nothing outside the link changes. -/
def Obligations.NoticesJoinOrAreDiscarded : Prop :=
  ∀ (n : Notice) (s : State), (s.raise n).apart = s.apart ∧ (s.raise n).lnk.placesHeld = s.lnk.placesHeld
    ∧ (s.lnk.notices.length < 24 →
        (s.raise n).lnk.noticesHeld = s.lnk.noticesHeld ++ [n] ∧ (s.raise n).lnk.overrun = s.lnk.overrun)
    ∧ (24 ≤ s.lnk.notices.length →
        (s.raise n).lnk.noticesHeld = s.lnk.noticesHeld ∧ (s.raise n).lnk.overrun = true)

/-- Every command of the controller is answered once by its owner, with its own kind, and a refused one changes no state
outside the link and raises no notice (R25, R172, R183). Where no command is held, the answer's place is made for it in the
same event: the model's choice (log entry 2). -/
def Obligations.RefusedCommandsChangeNothing : Prop :=
  ∀ (i : Instr) (k : Byte) (s : State), kindOf i = some k →
    ∃ t, exec i s = .next t ∧ ∃ a, t.lastAnswer = some a ∧ a.kind = k ∧ t.lnk.rx = s.lnk.rx ∧ Delivered i a s t
      ∧ (a.result.isRefusal = true →
          t.apart = s.apart ∧ t.lnk.noticesHeld = s.lnk.noticesHeld ∧ t.lnk.overrun = s.lnk.overrun ∧ a.data = .nothing)

/-- The body of every command of the controller is read back as that command, has a command kind, and has a length its
kind allows (R170, R179 to R182, Tables 10-3 and 10-5). A framed body starts with D5H and its length, and the sum of length,
body and check byte is 0 modulo 256 (R168, R179). -/
def Obligations.CommandBodiesRoundTrip : Prop :=
  (∀ (i : Instr) (k : Byte), kindOf i = some k →
    commandOf (bodyOf i) = some i ∧ (bodyOf i).headD 0 = k ∧ isCommandKind k = true
      ∧ lengthAllowed (bodyOf i) = true ∧ 1 ≤ (bodyOf i).length ∧ (bodyOf i).length ≤ 64)
  ∧ ∀ body : List Byte, body.length ≤ 64 →
    ∃ len check, frameBytes body = 0xD5 :: len :: body ++ [check] ∧ len.toNat = body.length
      ∧ len + byteSum body + check = 0

/-- A cue answer fits the 64-byte body: it carries the newest takes that fit, as many as R184 allows, and an offset above
8,388,607 as that. -/
def Obligations.CueAnswersFit : Prop :=
  (∀ (k : Byte) (rate : Rate) (c : Cue), c.takes.length ≤ 6 →
      ∃ (carried : Nat) (older newer : List Take), c.takes = older ++ newer ∧ newer.length = carried
        ∧ carried = (match c.pending with
            | none => c.takes.length
            | some p => min c.takes.length ((64 - 27 - (pendingBytes rate p).length) / 6))
        ∧ ({ kind := k, result := .done, data := .cue rate c } : Answer).body
            = (0x80 + k) :: 0x00 :: (cueBodyBytes rate c.loop c.vals ++ [c.stateByte]
              ++ [BitVec.ofNat 8 (c.nextTake % 128) ||| (flagByte (c.pending.any fun p => p.disarm) <<< 7),
                  BitVec.ofNat 8 c.takes.length ||| (BitVec.ofNat 8 carried <<< 4)]
              ++ newer.flatMap Take.bytes ++ c.pending.elim [] (pendingBytes rate))
        ∧ ({ kind := k, result := .done, data := .cue rate c } : Answer).body.length ≤ 64)
    ∧ ∀ (t : Take) (o : Int), t.offset = some o → 8388607 < o → t.bytes.drop 3 = [0x7F, 0xFF, 0xFF]

/-- STATUS answers each item as its block holds it and clears the overrun flag after placing it in the answer; RESTART is
answered DONE and changes nothing; POSITION_READ answers the items of R81 for each position state and changes nothing
(R81, R176, R177). -/
def Obligations.StatusAndPositionAnswer : Prop :=
  ∀ s : State,
    (∃ t, exec .status s = .next t ∧ t.apart = s.apart
      ∧ (∀ k : Fin 4, s.activeSet.getLsbD k.val = (s.ctx k).isSome)
      ∧ Answered .status .done
          (.status { position := s.pos.state, punchUnit := s.pch.unit, guardHigh := s.board.guardHigh, operation := s.cfu,
                     contexts := s.activeSet, overrun := s.lnk.overrun }) []
          { s with lnk := { s.lnk with overrun := false } } t)
    ∧ (∃ t, exec .restart s = .next t ∧ t.apart = s.apart ∧ Answered .restart .done .nothing [] s t)
    ∧ ∃ t, exec .positionRead s = .next t ∧ t.apart = s.apart
      ∧ (let label := labelOf s.pos.rate s.pos.n
         let info : PositionInfo := match s.pos.state with
           | .unknown => ⟨.unknown, .forward, 0, false, ⟨0, 0, 0, 0⟩, 0⟩
           | .stopped => ⟨.stopped, s.pos.dir, 0, false, label, 0⟩
           | .locked => ⟨.locked, s.pos.dir, s.pos.speed, s.pos.inSpeed, label, s.pos.b⟩
           | .freewheel => ⟨.freewheel, s.pos.dir, s.pos.speed, s.pos.inSpeed, label, s.pos.b⟩
         Answered .positionRead .done (.position info) [] s t)

/-! ## The Position Reader -/

/-- Labels and frame numbers at 24, 25 and 30 fps non-drop (R65): which labels are valid, the number of a valid label,
and that the two conversions are each other's inverse over the day. -/
def Obligations.LabelsCountTheDayNonDrop : Prop :=
  ∀ rate : Rate, rate ≠ .drop30 →
    (∀ l : Label, l.valid rate = true ↔
        l.hh.toNat ≤ 23 ∧ l.mm.toNat ≤ 59 ∧ l.ss.toNat ≤ 59 ∧ l.ff.toNat < rate.fps)
    ∧ (∀ l : Label, l.valid rate = true →
        l.number rate = ((l.hh.toNat * 60 + l.mm.toNat) * 60 + l.ss.toNat) * rate.fps + l.ff.toNat
        ∧ l.number rate < rate.fDay ∧ labelOf rate (l.number rate) = l)
    ∧ ∀ n : Nat, n < rate.fDay → (labelOf rate n).frame rate = some n

/-- Labels and frame numbers at 30 fps drop-frame (R66, R67): which labels are valid, the number of a valid label, the
three steps back, and that the two conversions are each other's inverse over the day. -/
def Obligations.LabelsCountTheDayDrop : Prop :=
  (∀ l : Label, l.valid .drop30 = true ↔
      l.hh.toNat ≤ 23 ∧ l.mm.toNat ≤ 59 ∧ l.ss.toNat ≤ 59 ∧ l.ff.toNat < 30
      ∧ ¬ (l.ss.toNat = 0 ∧ l.ff.toNat ≤ 1 ∧ l.mm.toNat % 10 ≠ 0))
    ∧ (∀ l : Label, l.valid .drop30 = true →
        (l.number .drop30 : Int) = (l.hh.toNat * 60 + l.mm.toNat) * 1800 + l.ss.toNat * 30 + l.ff.toNat
          - 2 * ((l.hh.toNat * 60 + l.mm.toNat) - ((l.hh.toNat * 60 + l.mm.toNat) / 10 : Nat))
        ∧ l.number .drop30 ≤ 2589407 ∧ labelOf .drop30 (l.number .drop30) = l)
    ∧ ∀ n : Nat, n ≤ 2589407 → (labelOf .drop30 n).frame .drop30 = some n
        ∧ labelOf .drop30 n
            = splitFrame (n + (18 * (n / 17982)
                + if n % 17982 < 2 then 0 else 2 * ((n % 17982 - 2) / 1798))) 30

/-- How a frame's digits, label, drop-frame flag and sync word are formed from its cells (R187, Table 10-10), the tests of a
good frame (R62), and what the rate agreement of a completed frame does (R63): the mismatch flag, the
RATE_MISMATCH notice at the first frame that disagrees, and that a bad frame outside LOCKED changes nothing else of the
position.
The RATE_MISMATCH notice comes before a POSITION notice of the same event by log entry 13. -/
def Obligations.FramesAreJudged : Prop :=
  (∀ f : LtcFrame,
    let cell (k : Nat) : Bool := if f.dir = .forward then f.cells.getLsbD k else f.cells.getLsbD (79 - k)
    let digit (k w : Nat) : Nat := ((List.range w).map fun i => if cell (k + i) then 2 ^ i else 0).sum
    digitsOf f = [digit 0 4, digit 8 2, digit 16 4, digit 24 3, digit 32 4, digit 40 3, digit 48 4, digit 56 2]
    ∧ (labelRead f).ff.toNat = 10 * digit 8 2 + digit 0 4 ∧ (labelRead f).ss.toNat = 10 * digit 24 3 + digit 16 4
    ∧ (labelRead f).mm.toNat = 10 * digit 40 3 + digit 32 4 ∧ (labelRead f).hh.toNat = 10 * digit 56 2 + digit 48 4
    ∧ dropFlag f = cell 10
    ∧ (syncPresent f = true ↔ ∀ i : Fin 16, cell (64 + i.val) = (decide (2 ≤ i.val ∧ i.val ≤ 13) || decide (i.val = 15))))
  ∧ ∀ (f : LtcFrame) (s : State), syncPresent f = true → s.lnk.roomFor 2 →
    (goodFrame s.pos.rate f = true ↔
        (∀ d ∈ digitsOf f, d ≤ 9) ∧ (labelRead f).valid s.pos.rate = true ∧ dropFlag f = s.pos.rate.isDrop
        ∧ 250 ≤ speedOf s.pos.rate f.duration ∧ speedOf s.pos.rate f.duration ≤ 4000)
    ∧ ∃ t, exec (.ltcFrame f) s = .next t ∧ t.pos.mismatch = (dropFlag f != s.pos.rate.isDrop)
      ∧ (let ns := if dropFlag f ≠ s.pos.rate.isDrop ∧ s.pos.mismatch = false then [.rateMismatch (dropFlag f)] else []
         (s.lnk.noticesHeld ++ ns) <+: t.lnk.noticesHeld
         ∧ (goodFrame s.pos.rate f = false → s.pos.state ≠ .locked → Noticed ns s t))
      ∧ (goodFrame s.pos.rate f = false → s.pos.state ≠ .locked →
          t.apart = { s with pos := { s.pos with mismatch := t.pos.mismatch } }.apart)

/-- A good frame read in UNKNOWN or STOPPED locks the position (R68, R69, R71) and raises the state event, then the frame
edge with the resume mark, then the tick (R77 to R79). A good frame read in LOCKED continues the position or is a jump
(R68, R69, R72, R76): the period is the gap since the completion before it, the measured mark is set, and the edge carries
the jump mark unless the number is the expected one. -/
def Obligations.GoodFramesMoveThePosition : Prop :=
  ∀ (f : LtcFrame) (s : State), syncPresent f = true → goodFrame s.pos.rate f = true →
    (let n := (labelRead f).number s.pos.rate
     let b := if f.dir = .forward then 0 else 79
     ((s.pos.state = .unknown ∨ s.pos.state = .stopped) → s.lnk.roomFor 1 →
       ∃ t, exec (.ltcFrame f) s = .next t ∧ Noticed [.position .locked f.dir] s t
         ∧ (let e : FrameEdge := { n := n, dir := f.dir, speed := speedOf s.pos.rate f.duration, inSpeed := false,
                                   jump := false, resume := true, state := .locked }
            t.apart = { s with
              pos := { s.pos with n := n, b := b, dir := f.dir, state := .locked, period := some f.duration,
                                  mark := false, count := 0, mismatch := false },
              raised := s.raised ++ stateEvents .locked f.dir ++ edgeEvents e b }.apart))
     ∧ (s.pos.state = .locked →
       ∃ t, exec (.ltcFrame f) s = .next t ∧ Noticed [] s t
         ∧ (let speed := speedOf s.pos.rate f.gap
            let expected := match f.dir with
              | .forward => if s.pos.n + 1 < s.pos.rate.fDay then s.pos.n + 1 else 0
              | .reverse => if s.pos.n = 0 then s.pos.rate.fDay - 1 else s.pos.n - 1
            let e : FrameEdge := { n := n, dir := f.dir, speed := speed, inSpeed := decide (875 ≤ speed ∧ speed ≤ 1125),
                                   jump := decide (n ≠ expected), resume := false, state := .locked }
            t.apart = { s with
              pos := { s.pos with n := n, b := b, dir := f.dir, period := some f.gap, mark := true, mismatch := false },
              raised := s.raised ++ edgeEvents e b }.apart)))

/-- A missing frame in LOCKED (R73): the first freewheel advance, or a stop where the limit is 0; every bad frame read in LOCKED
counts as missing, one whose drop-frame flag disagrees with the rate too, which raises RATE_MISMATCH the first time (R63).
An expiry of the freewheel timer (R74): one frame on while the count is below the limit, otherwise a stop. In the other
states the two timers do not run, so that their expiry does nothing: the model's choice (log entry 20). That RATE_MISMATCH
comes before POSITION is log entry 13. -/
def Obligations.MissingFramesFreewheelOrStop : Prop :=
  ∀ s : State,
    (s.pos.state ≠ .locked → exec .watchTimerExpiry s = .next s)
    ∧ (s.pos.state ≠ .freewheel → exec .freewheelTimerExpiry s = .next s)
    ∧ (let d := s.pos.dir
       let n := nextFrame s.pos.rate s.pos.n d
       let b := if d = .forward then 0 else 79
       let e : FrameEdge := { n := n, dir := d, speed := s.pos.speed, inSpeed := s.pos.inSpeed, jump := false,
                              resume := false, state := .freewheel }
       let stops (before : List Notice) (mismatch : Bool) (t : State) : Prop :=
         Noticed (before ++ [.position .stopped d]) s t
         ∧ t.apart = { s with
             pos := { s.pos with b := 0, state := .stopped, period := none, mark := false, count := 0, mismatch := mismatch },
             raised := s.raised ++ stateEvents .stopped d }.apart
       let missed (before : List Notice) (mismatch : Bool) (t : State) : Prop :=
         if s.pos.limit = 0 then stops before mismatch t
         else Noticed (before ++ [.position .freewheel d]) s t
           ∧ t.apart = { s with
               pos := { s.pos with n := n, b := b, state := .freewheel, count := 1, mismatch := mismatch },
               raised := s.raised ++ stateEvents .freewheel d ++ edgeEvents e b }.apart
       (s.pos.state = .locked → s.pos.inSpeed = ({ s.pos with state := PosState.freewheel } : Pos).inSpeed)
       ∧ (s.pos.state = .locked → s.lnk.roomFor 1 → ∃ t, exec .watchTimerExpiry s = .next t ∧ missed [] s.pos.mismatch t)
       ∧ (∀ f, s.pos.state = .locked → syncPresent f = true → goodFrame s.pos.rate f = false → s.lnk.roomFor 2 →
           ∃ t, exec (.ltcFrame f) s = .next t
             ∧ if dropFlag f = s.pos.rate.isDrop then missed [] false t
               else missed (if s.pos.mismatch then [] else [.rateMismatch (dropFlag f)]) true t)
       ∧ (s.pos.state = .freewheel → s.lnk.roomFor 1 → ∃ t, exec .freewheelTimerExpiry s = .next t
         ∧ if s.pos.count < s.pos.limit then Noticed [] s t
             ∧ t.apart = { s with
                 pos := { s.pos with n := n, b := b, count := s.pos.count + 1 },
                 raised := s.raised ++ edgeEvents e b }.apart
           else stops [] s.pos.mismatch t))

/-- A good frame ends a freewheel (R75): the three rows of its table, the period held. The state event and the POSITION notice
carry the good frame's direction: the model's choice (log entry 30). -/
def Obligations.GoodFrameEndsFreewheel : Prop :=
  ∀ (f : LtcFrame) (s : State), syncPresent f = true → goodFrame s.pos.rate f = true → s.pos.state = .freewheel →
    s.lnk.roomFor 1 →
    ∃ t, exec (.ltcFrame f) s = .next t
      ∧ (let n := (labelRead f).number s.pos.rate
         let b := if f.dir = .forward then 0 else 79
         let e : FrameEdge := { n := n, dir := f.dir, speed := s.pos.speed, inSpeed := s.pos.inSpeed,
                                jump := decide (n ≠ nextFrame s.pos.rate s.pos.n f.dir), resume := false, state := .locked }
         if n = s.pos.n ∧ f.dir = s.pos.dir then
           Noticed [.position .locked s.pos.dir] s t
           ∧ t.apart = { s with
                         pos := { s.pos with state := .locked, count := 0, mismatch := false },
                         raised := s.raised ++ stateEvents .locked s.pos.dir }.apart
         else
           Noticed [.position .locked f.dir] s t
           ∧ t.apart = { s with
                         pos := { s.pos with n := n, b := b, dir := f.dir, state := .locked, count := 0, mismatch := false },
                         raised := s.raised ++ stateEvents .locked f.dir ++ edgeEvents e b }.apart)

/-- A tick between frame edges (R78): in LOCKED and FREEWHEEL the cell index moves one step in the direction of travel and
the tick is raised for both its takers, until the last cell of the frame; in UNKNOWN and STOPPED there is none.
The last point is the model's choice (log entry 20). -/
def Obligations.TicksMoveTheCell : Prop :=
  ∀ s : State, ∃ t, exec .posTick s = .next t
    ∧ (let d := s.pos.dir
       let b := if d = .forward then s.pos.b + 1 else s.pos.b - 1
       if (s.pos.state = .locked ∨ s.pos.state = .freewheel)
           ∧ ((d = .forward ∧ s.pos.b < 79) ∨ (d = .reverse ∧ 0 < s.pos.b)) then
         t = { s with
               pos := { s.pos with b := b },
               raised := s.raised ++ [.ciuTick (s.pos.n * 80 + b) d, .vgtTick (s.pos.n * 80 + b) d] }
       else t = s)

/-- SET_RATE (R64): refused BAD_FIELD for a code that is no rate, then REEL_NOT_EMPTY unless every reel is EMPTY; taken, it
sets the rate, makes the position UNKNOWN with its held values, clears the mismatch flag, and raises the state event when
the state was another. -/
def Obligations.SetRateMakesUnknown : Prop :=
  ∀ (code : Byte) (s : State), s.lnk.roomFor 1 →
    ∃ t, exec (.setRate code) s = .next t
      ∧ (if 3 < code.toNat then t.apart = s.apart ∧ Answered (.setRate code) .badField .nothing [] s t
         else if ∃ r : Fin 8, (s.reel r).state ≠ .empty then
           t.apart = s.apart ∧ Answered (.setRate code) .reelNotEmpty .nothing [] s t
         else
           let rate := if code = 0 then Rate.fps24 else if code = 1 then Rate.fps25 else if code = 2 then Rate.fps30
             else Rate.drop30
           let p : Pos := { rate := rate, limit := s.pos.limit, state := .unknown, n := 0, b := 0, dir := .forward,
                            period := none, mark := false, count := 0, mismatch := false }
           if s.pos.state = .unknown then
             t.apart = { s with pos := p }.apart ∧ Answered (.setRate code) .done .nothing [] s t
           else
             t.apart = { s with
                         pos := p,
                         raised := s.raised ++ stateEvents .unknown .forward }.apart
             ∧ Answered (.setRate code) .done .nothing [.position .unknown .forward] s t)

/-- SET_FREEWHEEL (R80): a limit of 0 to 30 is stored as given and answered DONE, one above as 30 and answered ADJUSTED, in
every position state; it acts from the next missing frame or expiry; a cold reset sets 5, a warm reset and SET_RATE
keep it. -/
def Obligations.SetFreewheelStoresTheLimit : Prop :=
  ∀ (limit : Byte) (s : State),
    (∃ t, exec (.setFreewheel limit) s = .next t
      ∧ t.apart = { s with pos := { s.pos with limit := if limit.toNat ≤ 30 then limit.toNat else 30 } }.apart
      ∧ Answered (.setFreewheel limit) (if limit.toNat ≤ 30 then .done else .adjusted) .nothing [] s t
      ∧ (t.pos.state = .freewheel → t.pos.limit ≤ t.pos.count →
          ∃ u, exec .freewheelTimerExpiry t = .next u ∧ u.pos.state = .stopped)
      ∧ (t.pos.state = .locked → limit = 0 → ∃ u, exec .watchTimerExpiry t = .next u ∧ u.pos.state = .stopped))
    ∧ (∃ t, exec .coldReset s = .next t ∧ t.pos.limit = 5)
    ∧ (∀ byLine, ∃ t, exec (.warmReset byLine) s = .next t ∧ t.pos.limit = s.pos.limit)
    ∧ ∀ code, ∃ t, exec (.setRate code) s = .next t ∧ t.pos.limit = s.pos.limit

/-! ## The Cue Store -/

/-- The edit and play forms of REEL_SELECT (R5, R6, R7), with a reel number above 7 refused (R1), and so a body of three bytes
whose form byte is no defined form (R182), which the model takes as a play form that carries it (log entry 4). -/
def Obligations.ReelSelectorsFollow : Prop :=
  ∀ (code : Byte) (form : UndefinedForm) (s : State), s.lnk.roomFor 1 →
    (reelOf code).map Fin.val = (if code.toNat ≤ 7 then some code.toNat else none)
    ∧ (∃ t, exec (.reelSelectEdit code) s = .next t
      ∧ (reelOf code = none → Refused (.reelSelectEdit code) .badField s t)
      ∧ (∀ r, reelOf code = some r → t.apart = { s with cst := { s.cst with editReel := r } }.apart
          ∧ Answered (.reelSelectEdit code) .done .nothing [] s t))
    ∧ (∃ t, exec (.reelSelectPlay code (some form)) s = .next t ∧ Refused (.reelSelectPlay code (some form)) .badField s t)
    ∧ ∃ t, exec (.reelSelectPlay code) s = .next t
      ∧ (reelOf code = none → Refused (.reelSelectPlay code) .badField s t)
      ∧ (∀ r, reelOf code = some r →
          if ∀ k : Fin 4, s.ctx k = none then
            if r = s.cst.playReel then t.apart = s.apart ∧ Answered (.reelSelectPlay code) .done .nothing [] s t
            else t.apart = { s with cst := { s.cst with playReel := r, pendingPlay := none },
                                    psc := { s.psc with refind := true } }.apart
              ∧ Answered (.reelSelectPlay code) .done .nothing [.reelSwitched r] s t
          else if r = s.cst.playReel then
            t.apart = { s with cst := { s.cst with pendingPlay := none } }.apart
            ∧ Answered (.reelSelectPlay code) .done .nothing [] s t
          else
            t.apart = { s with cst := { s.cst with pendingPlay := some r } }.apart
            ∧ Answered (.reelSelectPlay code) .pending .nothing [] s t)

/-- The tag form of REEL_SELECT (R3): in every state it sets the named reel's tag and nothing else, is answered DONE, the
tag is in the REEL_INFO answer, it survives retiring, REEL_CLEAR and a warm reset, and a cold reset sets every tag
to 0. A body of five bytes whose form byte is no defined form is refused BAD_FIELD (R182), as a tag form that carries it
(log entry 4). -/
def Obligations.ReelTagsAreKept : Prop :=
  ∀ (code : Byte) (form : UndefinedForm) (tag loop : BitVec 16) (byLine : Bool) (s : State),
    (∃ t, exec (.reelSelectTag code tag (some form)) s = .next t ∧ Refused (.reelSelectTag code tag (some form)) .badField s t)
    ∧ (∃ t, exec (.reelSelectTag code tag) s = .next t
      ∧ (7 < code.toNat → Refused (.reelSelectTag code tag) .badField s t)
      ∧ (∀ r, reelOf code = some r → OnlyReels s.psc.refind s t ∧ OneReel r { s.reel r with tag := tag } s t
          ∧ Answered (.reelSelectTag code tag) .done .nothing [] s t))
    ∧ (∃ t, exec (.reelInfo code) s = .next t
      ∧ ∀ r, reelOf code = some r → t.lastAnswer.map (fun a => (a.result, a.data)) = some (.done, .reel (s.reelInfo r))
          ∧ (s.reelInfo r).tag = (s.reel r).tag)
    ∧ (∃ t, exec (.cueRetire loop) s = .next t ∧ ∀ r : Fin 8, (t.reel r).tag = (s.reel r).tag)
    ∧ (∃ t, exec .reelClear s = .next t ∧ ∀ r : Fin 8, (t.reel r).tag = (s.reel r).tag)
    ∧ (∃ t, exec (.warmReset byLine) s = .next t ∧ ∀ r : Fin 8, (t.reel r).tag = (s.reel r).tag)
    ∧ ∃ t, exec .coldReset s = .next t ∧ ∀ r : Fin 8, (t.reel r).tag = 0

/-- REEL_INFO, CUE_READ and CUE_NEXT answer from the reels as they stand and change nothing (R10, R20, R21, R22). -/
def Obligations.LookupsReadTheReels : Prop :=
  ∀ (code : Byte) (loop : BitVec 16) (label : Label) (s : State), s.cst.lawful = true →
    (∃ t, exec (.reelInfo code) s = .next t
      ∧ (reelOf code = none → Refused (.reelInfo code) .badField s t)
      ∧ (∀ r, reelOf code = some r → t.apart = s.apart
          ∧ Answered (.reelInfo code) .done
              (.reel { reel := r, tag := (s.reel r).tag, state := (s.reel r).state, count := (s.reel r).cues.length,
                       earliest := (s.reel r).earliest.map (labelOf s.pos.rate),
                       latest := (s.reel r).latest.map (labelOf s.pos.rate), conform := (s.reel r).conform,
                       isPlay := decide (r = s.cst.playReel), isEdit := decide (r = s.cst.editReel),
                       isPending := decide (s.cst.pendingPlay = some r) }) [] s t))
    ∧ (∃ t, exec (.cueRead loop) s = .next t
      ∧ if 1 ≤ loop.toNat ∧ loop.toNat ≤ 9999 then
          (s.found loop = none → Refused (.cueRead loop) .noSuchCue s t)
          ∧ (∀ p, s.found loop = some p → t.apart = s.apart
              ∧ Answered (.cueRead loop) .done (.cue s.pos.rate p.2) [] s t)
        else Refused (.cueRead loop) .badField s t)
    ∧ ∃ t, exec (.cueNext label) s = .next t
      ∧ (label.frame s.pos.rate = none → Refused (.cueNext label) .badTimecode s t)
      ∧ (∀ n, label.frame s.pos.rate = some n →
          ((∀ slot ∈ s.editReel.order, s.editReel.key slot < (n : Int)) → Refused (.cueNext label) .noSuchCue s t)
          ∧ (∀ slot, s.editReel.order.find? (fun x => decide ((n : Int) ≤ s.editReel.key x)) = some slot →
              ∀ c, s.editReel.cue slot = some c → t.apart = s.apart
                ∧ Answered (.cueNext label) .done (.cue s.pos.rate c) [] s t
                ∧ s.editReel.key slot = c.vals.inPt + if c.conformPending then s.editReel.delta else 0))

/-- REEL_CLEAR (R60): its checks in order, and the cleared reel with its tag kept, a LOCKED copy source released, and the
re-find mark set where the play reel held cues. -/
def Obligations.ReelClearEmptiesTheReel : Prop :=
  ∀ s : State, ∃ t, exec .reelClear s = .next t
    ∧ (let e := s.cst.editReel
       let x := s.reel e
       if x.state = .conforming ∨ x.state = .locked then Refused .reelClear .reelBusy s t
       else if x.state = .empty then t.apart = s.apart ∧ Answered .reelClear .done .nothing [] s t
       else if ∃ p ∈ x.cues, p.2.state.isPassing = true then Refused .reelClear .passActive s t
       else
         OnlyReels (s.psc.refind || (decide (e = s.cst.playReel) && !x.cues.isEmpty)) s t
         ∧ Answered .reelClear .done .nothing [] s t
         ∧ ∀ r : Fin 8,
           if x.conform.map (fun c => c.op) = some (.copy r) then
             (t.reel r).state = .opened ∧ (r ≠ e → t.reel r = { s.reel r with state := .opened })
           else t.reel r = if r = e then { tag := x.tag, state := .empty, cues := [], order := [], earliest := none,
                                           latest := none, conform := none } else s.reel r)

/-- The result of CUE_WRITE by its checks in order (R30), each check made only where those before it pass. -/
def Obligations.CueWriteChecksInOrder : Prop :=
  ∀ (loop : BitVec 16) (f : CueFields) (s : State),
    ∃ t, exec (.cueWrite loop f) s = .next t
      ∧ (let refused (r : Result) : Prop := Refused (.cueWrite loop f) r s t
         let x := s.editReel
         if ¬ (1 ≤ loop.toNat ∧ loop.toNat ≤ 9999 ∧ f.mode.toNat ≤ 1) then refused .badField
         else if x.state = .conforming ∨ x.state = .locked then refused .reelBusy
         else if x.state = .partly then refused .reelPartial
         else if f.inPt.valid s.pos.rate = false ∨ f.outPt.valid s.pos.rate = false then refused .badTimecode
         else if f.outPt.number s.pos.rate ≤ f.inPt.number s.pos.rate then refused .badField
         else if ∃ p ∈ x.cues, p.2.loop = loop.toNat then refused .duplicateLoop
         else if 160 ≤ x.cues.length then refused .reelFull
         else f.inPt.number s.pos.rate < f.outPt.number s.pos.rate ∧ f.outPt.number s.pos.rate < s.pos.rate.fDay
           ∧ Answered (.cueWrite loop f) (if writeClamped f then .adjusted else .done) .nothing [] s t)

/-- A CUE_WRITE that passes its checks creates the cue (R1, R2, R9, R11, R28, R29, R31): in the lowest free slot, READY, with
the given values clamped as Table 2-2 gives, in its place of the order list, the header recomputed, the reel OPEN, and
the re-find mark set where the edit reel is the play reel. -/
def Obligations.CueWriteCreatesTheCue : Prop :=
  ∀ (loop : BitVec 16) (f : CueFields) (slot : Nat) (s : State),
    1 ≤ loop.toNat → loop.toNat ≤ 9999 → f.mode.toNat ≤ 1 →
    (s.editReel.state = .empty ∨ s.editReel.state = .opened) →
    f.inPt.valid s.pos.rate = true → f.outPt.valid s.pos.rate = true →
    f.inPt.number s.pos.rate < f.outPt.number s.pos.rate →
    (∀ p ∈ s.editReel.cues, p.2.loop ≠ loop.toNat) → s.editReel.cues.length < 160 → s.editReel.lawful = true →
    s.editReel.cue slot = none → (∀ k < slot, (s.editReel.cue k).isSome = true) → slot < 160 →
    ∃ t, exec (.cueWrite loop f) s = .next t
      ∧ (let e := s.cst.editReel
         let spacing := if f.spacing.toNat < 6 then 6 else if 60 < f.spacing.toNat then 60 else f.spacing.toNat
         let v : CueVals := {
           inPt := f.inPt.number s.pos.rate, outPt := f.outPt.number s.pos.rate, char := f.char,
           beeps := if 4 < f.beeps.toNat then 4 else f.beeps.toNat, spacing := spacing,
           onTime := if spacing * 80 < f.onTime.toNat then spacing * 80 else f.onTime.toNat,
           tone := if f.tone.toNat < 23 then 23 else if 239 < f.tone.toNat then 239 else f.tone.toNat,
           streamer := if 1 ≤ f.streamer.toNat ∧ f.streamer.toNat ≤ 11 then 12
             else if 240 < f.streamer.toNat then 240 else f.streamer.toNat,
           colour := if 7 < f.colour.toNat then 7 else f.colour.toNat,
           tail := if 240 < f.tail.toNat then 240 else f.tail.toNat,
           lines := f.lines, mode := if f.mode = 0 then .once else .cycle }
         let given : Bool := decide (v.beeps = f.beeps.toNat ∧ v.spacing = f.spacing.toNat ∧ v.onTime = f.onTime.toNat
           ∧ v.tone = f.tone.toNat ∧ v.streamer = f.streamer.toNat ∧ v.colour = f.colour.toNat ∧ v.tail = f.tail.toNat)
         let c : Cue := { loop := loop.toNat, vals := v, state := .ready, protect := false, waited := false,
                          conformPending := false, nextTake := 1, takes := [], pending := none }
         OnlyReels (s.psc.refind || decide (e = s.cst.playReel)) s t
         ∧ (∀ r, r ≠ e → t.reel r = s.reel r)
         ∧ t.cue e slot = some c ∧ (∀ k, k ≠ slot → t.cue e k = s.cue e k)
         ∧ (t.reel e).cues.length = (s.reel e).cues.length + 1
         ∧ JoinedOrder slot (s.reel e).order (t.reel e) ∧ PointsOf (t.reel e)
         ∧ (t.reel e).tag = (s.reel e).tag ∧ (t.reel e).state = .opened ∧ (t.reel e).conform = (s.reel e).conform
         ∧ Answered (.cueWrite loop f) (if given then .done else .adjusted) .nothing [] s t)

/-- The result of CUE_AMEND by its checks in order (R25, R26, R32 to R36). The frames and lines checked are those the cue
will run on once every accepted change is applied (R33).
That the check of lines is made of the lines the cue will run on, whether or not the command names them, is log entry 25. -/
def Obligations.CueAmendChecksInOrder : Prop :=
  ∀ (loop : BitVec 16) (reserved : BitVec 4) (f : AmendFields) (s : State), s.cst.lawful = true →
    ∃ t, exec (.cueAmend loop reserved f) s = .next t
      ∧ (let i : Instr := .cueAmend loop reserved f
         let x := s.editReel
         let frame (l : Option Label) (old : Nat) : Nat := l.elim old fun l => l.number s.pos.rate
         if ¬ (1 ≤ loop.toNat ∧ loop.toNat ≤ 9999) ∨ reserved ≠ 0 ∨ amendNames f = false ∨ f.mode.any (fun m => 1 < m.toNat)
         then Refused i .badField s t
         else if x.state = .conforming ∨ x.state = .locked then Refused i .reelBusy s t
         else if x.state = .partly then Refused i .reelPartial s t
         else if f.inPt.any (fun l => !l.valid s.pos.rate) ∨ f.outPt.any (fun l => !l.valid s.pos.rate) then
           Refused i .badTimecode s t
         else (s.found loop = none → Refused i .noSuchCue s t)
           ∧ ∀ p, s.found loop = some p →
             let c := p.2
             let run := c.pendingFields.over c.vals
             let inPt := frame f.inPt run.inPt
             let outPt := frame f.outPt run.outPt
             let lines := f.lines.getD run.lines
             let spacing := (f.spacing.map fun v => clampSpacing v.toNat).getD run.spacing
             let onTime := (f.onTime.map BitVec.toNat).getD run.onTime
             let clamped : Bool := f.beeps.any (fun v => 4 < v.toNat) || f.spacing.any (fun v => v.toNat < 6 || 60 < v.toNat)
               || decide (spacing * 80 < onTime) || f.tone.any (fun v => v.toNat < 23 || 239 < v.toNat)
               || f.streamer.any (fun v => (1 ≤ v.toNat && v.toNat ≤ 11) || 240 < v.toNat)
               || f.colour.any (fun v => 7 < v.toNat) || f.tail.any (fun v => 240 < v.toNat)
             if c.protect then Refused i .protectedCue s t
             else if outPt ≤ inPt then Refused i .badField s t
             else if c.state.kind = some .record ∧ lines = 0 then Refused i .noLines s t
             else Answered i (if c.state.isPassing then .pending else if clamped then .adjusted else .done) .nothing [] s t)

/-- What an accepted CUE_AMEND does (R28, R29, R35, R36): on a PASSING cue it is merged into the pending edit and nothing
else changes; on any other its values replace the in-use ones, and a changed in-point moves the cue in its order list,
clears its waited flag and, in the play reel, sets the re-find mark; a changed in-point or out-point recomputes the
header. `e` holds the given values, clamped, with an on-time above the limit of R29 set to it. -/
def Obligations.CueAmendTakesEffect : Prop :=
  ∀ (loop : BitVec 16) (f : AmendFields) (slot : Nat) (c : Cue) (s : State), s.cst.lawful = true →
    1 ≤ loop.toNat → loop.toNat ≤ 9999 → amendNames f = true → f.mode.all (fun m => m.toNat ≤ 1) = true →
    (s.editReel.state = .empty ∨ s.editReel.state = .opened) →
    f.inPt.all (fun l => l.valid s.pos.rate) = true → f.outPt.all (fun l => l.valid s.pos.rate) = true →
    s.found loop = some (slot, c) → c.protect = false →
    (f.inPt.elim (c.pendingFields.over c.vals).inPt fun l => l.number s.pos.rate)
      < (f.outPt.elim (c.pendingFields.over c.vals).outPt fun l => l.number s.pos.rate) →
    ¬ (c.state.kind = some .record ∧ f.lines.getD (c.pendingFields.over c.vals).lines = 0) →
    ∃ t, exec (.cueAmend loop 0 f) s = .next t ∧
    (let e := s.cst.editReel
     let frame (l : Option Label) : Option Nat := l.map fun l => l.number s.pos.rate
     let run := c.pendingFields.over c.vals
     let spacing := (f.spacing.map fun v => clampSpacing v.toNat).getD run.spacing
     let onTime := (f.onTime.map BitVec.toNat).getD run.onTime
     let given : EditVals := {
       inPt := frame f.inPt, outPt := frame f.outPt, char := f.char, beeps := f.beeps.map fun v => clampBeeps v.toNat,
       spacing := f.spacing.map fun v => clampSpacing v.toNat,
       onTime := if spacing * 80 < onTime then some (spacing * 80) else f.onTime.map BitVec.toNat,
       tone := f.tone.map fun v => clampTone v.toNat, streamer := f.streamer.map fun v => clampStreamer v.toNat,
       colour := f.colour.map fun v => clampColour v.toNat, tail := f.tail.map fun v => clampTail v.toNat,
       lines := f.lines, mode := f.mode.map fun m => if m = 0 then .once else .cycle }
     if c.state.isPassing then
       t.lastAnswer.map (fun a => a.result) = some .pending ∧ OnlyReels s.psc.refind s t
       ∧ OneCue e slot { c with pending := some { fields := given.merge c.pendingFields,
                                                  disarm := c.pending.any fun p => p.disarm } } s t
     else
       let v := given.over c.vals
       t.lastAnswer.all (fun a => !a.result.isRefusal) = true
       ∧ OnlyReels (s.psc.refind || (decide (v.inPt ≠ c.vals.inPt) && decide (e = s.cst.playReel))) s t
       ∧ EditedCue e slot c { c with vals := v, waited := c.waited && decide (v.inPt = c.vals.inPt) } s t)

/-- CUE_RETIRE (R26, R39 to R41): its checks in order; the cue leaves its slot and the order list, the header is recomputed,
a reel without cues is EMPTY, and the re-find mark is set where the edit reel is the play reel. A PASSING cue's pass is
aborted first, with cause RETIRED and no take, and its context handed on to the Punch Unit and the Count-In Unit; where that
leaves no context ACTIVE, a pending play reel is applied in the same event, its notice after the PASS_END (R8). -/
def Obligations.CueRetireRemovesTheCue : Prop :=
  ∀ (loop : BitVec 16) (s : State), s.cst.lawful = true → s.PassesLawful → s.lnk.roomFor 2 →
    ∃ t, exec (.cueRetire loop) s = .next t
      ∧ (let i : Instr := .cueRetire loop
         let e := s.cst.editReel
         let x := s.reel e
         if ¬ (1 ≤ loop.toNat ∧ loop.toNat ≤ 9999) then Refused i .badField s t
         else if x.state = .conforming ∨ x.state = .locked then Refused i .reelBusy s t
         else if x.state = .partly then Refused i .reelPartial s t
         else (s.found loop = none → Refused i .noSuchCue s t)
           ∧ ∀ p, s.found loop = some p →
             if p.2.protect then Refused i .protectedCue s t
             else
               t.cst.editReel = e
               ∧ (∀ r, r ≠ e → t.reel r = s.reel r) ∧ t.cue e p.1 = none ∧ (∀ k, k ≠ p.1 → t.cue e k = s.cue e k)
               ∧ (t.reel e).cues.length + 1 = x.cues.length ∧ (t.reel e).order = x.order.erase p.1 ∧ PointsOf (t.reel e)
               ∧ (t.reel e).tag = x.tag ∧ (t.reel e).conform = x.conform
               ∧ (t.reel e).state = (if x.cues.length = 1 then .empty else x.state)
               ∧ (if p.2.state.isPassing then
                    ∃ k : Fin 4, (s.ctx k).isSome = true ∧ ∀ c, s.ctx k = some c → c.reel = e ∧ c.slot = p.1
                      ∧ t.apart = { s with
                                    cst := t.cst,
                                    psc := { s.psc with ctxs := s.psc.ctxs.set k none,
                                                        refind := s.psc.refind || decide (e = s.cst.playReel) },
                                    raised := s.raised ++ [Instr.release k c.loop, Instr.freeHandover k] }.apart
                      ∧ (let last := ∀ j : Fin 4, j ≠ k → s.ctx j = none
                         (last → t.cst.playReel = s.cst.pendingPlay.getD s.cst.playReel ∧ t.cst.pendingPlay = none
                           ∧ Answered i .done .nothing (.passEnd k e c.loop (.aborted .retired) c.phase none
                               :: s.cst.pendingPlay.toList.map .reelSwitched) s t)
                         ∧ (¬ last → t.cst.playReel = s.cst.playReel ∧ t.cst.pendingPlay = s.cst.pendingPlay
                           ∧ Answered i .done .nothing [.passEnd k e c.loop (.aborted .retired) c.phase none] s t))
                  else OnlyReels (s.psc.refind || decide (e = s.cst.playReel)) s t ∧ Answered i .done .nothing [] s t))

/-- CUE_ARM: its checks in order, those of RECORD made for RECORD alone (R25, R26, R42), and its effect, which leaves all but
the state and kind of the one cue as it is (R43). -/
def Obligations.CueArmArmsTheCue : Prop :=
  ∀ (loop : BitVec 16) (kind : Byte) (s : State), s.cst.lawful = true →
    ∃ t, exec (.cueArm loop kind) s = .next t
      ∧ (let i : Instr := .cueArm loop kind
         let x := s.editReel
         if ¬ (1 ≤ loop.toNat ∧ loop.toNat ≤ 9999 ∧ kind.toNat ≤ 1) then Refused i .badField s t
         else if x.state = .conforming then Refused i .reelBusy s t
         else if x.state = .partly then Refused i .reelPartial s t
         else (s.found loop = none → Refused i .noSuchCue s t)
           ∧ ∀ p, s.found loop = some p →
             let c := p.2
             if c.state.isPassing then Refused i .passActive s t
             else if kind = 1 ∧ c.vals.lines = 0 then Refused i .noLines s t
             else if kind = 1 ∧ 100 ≤ c.nextTake then Refused i .takeLimit s t
             else if kind = 1 ∧ 6 ≤ c.takes.length ∧ (∀ t ∈ c.takes, t.circled = true) then Refused i .takesFull s t
             else OnlyReels s.psc.refind s t
               ∧ OneCue s.cst.editReel p.1 { c with state := .armed (if kind = 1 then .record else .rehearse) } s t
               ∧ Answered i .done .nothing [] s t)

/-- CUE_DISARM by the state of the cue (R44). CUE_PROTECT, taken in every cue state and on every reel but a PARTIAL one, sets
the protect flag and nothing else (R45). -/
def Obligations.CueDisarmAndProtect : Prop :=
  ∀ (loop : BitVec 16) (value : Byte) (s : State), s.cst.lawful = true →
    (∃ t, exec (.cueDisarm loop) s = .next t
      ∧ (let i : Instr := .cueDisarm loop
         let x := s.editReel
         if ¬ (1 ≤ loop.toNat ∧ loop.toNat ≤ 9999) then Refused i .badField s t
         else if x.state = .conforming then Refused i .reelBusy s t
         else if x.state = .partly then Refused i .reelPartial s t
         else (s.found loop = none → Refused i .noSuchCue s t)
           ∧ ∀ p, s.found loop = some p →
             let c := p.2
             let changed (d : Cue) (r : Result) : Prop :=
               OnlyReels s.psc.refind s t ∧ OneCue s.cst.editReel p.1 d s t ∧ Answered i r .nothing [] s t
             (c.state = .ready → changed c .done)
             ∧ (∀ kind, c.state = .armed kind → changed { c with state := .ready, waited := false } .done)
             ∧ (c.state = .done → changed { c with state := .ready } .done)
             ∧ ∀ kind, c.state = .passing kind →
                 changed { c with pending := some { fields := c.pendingFields, disarm := true } } .pending))
    ∧ ∃ t, exec (.cueProtect loop value) s = .next t
      ∧ (let i : Instr := .cueProtect loop value
         if ¬ (1 ≤ loop.toNat ∧ loop.toNat ≤ 9999 ∧ value.toNat ≤ 1) then Refused i .badField s t
         else if s.editReel.state = .partly then Refused i .reelPartial s t
         else (s.found loop = none → Refused i .noSuchCue s t)
           ∧ ∀ p, s.found loop = some p → OnlyReels s.psc.refind s t
             ∧ OneCue s.cst.editReel p.1 { p.2 with protect := decide (value = 1) } s t ∧ Answered i .done .nothing [] s t)

/-- TAKE_CIRCLE and TAKE_RETIRE: the checks of R155 in order; the one sets the circled field, the other takes the take out of
its list, with the next take number kept, and out of the context that holds it (R149, R155, R156). -/
def Obligations.TakesAreCircledAndRetired : Prop :=
  ∀ (loop : BitVec 16) (take value : Byte) (s : State), s.cst.lawful = true →
    (let checked (i : Instr) (fieldsOk : Bool) (t : State) (effect : Nat → Cue → Prop) : Prop :=
       if !(decide (1 ≤ loop.toNat ∧ loop.toNat ≤ 9999 ∧ 1 ≤ take.toNat ∧ take.toNat ≤ 99) && fieldsOk) then
         Refused i .badField s t
       else if s.editReel.state = .partly then Refused i .reelPartial s t
       else (s.found loop = none → Refused i .noSuchCue s t)
         ∧ ∀ p, s.found loop = some p →
           if p.2.protect then Refused i .protectedCue s t
           else (p.2.takes.find? (fun x => decide (x.number = take.toNat)) = none → Refused i .noSuchTake s t)
             ∧ ∀ x, p.2.takes.find? (fun x => decide (x.number = take.toNat)) = some x →
               if x.result = .opened then Refused i .passActive s t
               else effect p.1 p.2 ∧ Answered i .done .nothing [] s t
     (∃ t, exec (.takeCircle loop take value) s = .next t
       ∧ checked (.takeCircle loop take value) (decide (value.toNat ≤ 1)) t fun slot c =>
         OnlyReels s.psc.refind s t
         ∧ OneCue s.cst.editReel slot { c with takes := c.takes.map fun x =>
             if x.number = take.toNat then { x with circled := decide (value = 1) } else x } s t)
     ∧ ∃ t, exec (.takeRetire loop take) s = .next t
       ∧ checked (.takeRetire loop take) true t fun slot c =>
         t.apart = { s with cst := { s.cst with reels := t.cst.reels }, psc := { s.psc with ctxs := t.psc.ctxs } }.apart
         ∧ OneCue s.cst.editReel slot { c with takes := c.takes.filter fun x => decide (x.number ≠ take.toNat) } s t
         ∧ ∀ k : Fin 4, t.ctx k = (s.ctx k).map fun x =>
             if x.reel = s.cst.editReel ∧ x.slot = slot ∧ x.take = some take.toNat then { x with take := none } else x)
/-! ## The Conform Unit -/

/-- REEL_SHIFT: its checks in order and the start of a shift (R48, R49). REEL_RESUME: its checks in order, and the operation
taken from the conform record (R59). -/
def Obligations.ShiftsStartAndConformsResume : Prop :=
  ∀ (delta : BitVec 32) (s : State), (∃ t, exec (.reelShift delta) s = .next t
    ∧ (let i : Instr := .reelShift delta
       let d := delta.toInt
       let e := s.cst.editReel
       let x := s.reel e
       let last : Int := s.pos.rate.fDay - 1
       if last < d.natAbs then Refused i .badField s t
       else if s.cfu.isSome then Refused i .conformBusy s t
       else if x.state = .partly then Refused i .reelPartial s t
       else if x.state = .locked then Refused i .reelBusy s t
       else if ∃ p ∈ x.cues, p.2.state.isPassing = true then Refused i .passActive s t
       else if x.earliest.any (fun a => decide ((a : Int) + d < 0)) ∨ x.latest.any (fun b => decide (last < (b : Int) + d)) then
         Refused i .outOfDay s t
       else if x.state = .empty then t.apart = s.apart ∧ Answered i .done .nothing [] s t
       else
         t.apart = { s with
           cst := { s.cst with reels := t.cst.reels },
           cfu := some { op := .shift, target := e, delta := d, cursor := 0 },
           psc := { s.psc with refind := s.psc.refind || decide (e = s.cst.playReel) } }.apart
         ∧ OneReel e { x with
             state := .conforming, conform := some { op := .shift, delta := d, cursor := 0 },
             cues := x.cues.map fun p => (p.1, { p.2 with conformPending := true }) } s t
         ∧ Answered i .pending .nothing [] s t))
    ∧ ∃ t, exec .reelResume s = .next t
      ∧ (let e := s.cst.editReel
         let x := s.reel e
         if s.cfu.isSome then Refused .reelResume .conformBusy s t
         else if x.state = .locked then Refused .reelResume .reelBusy s t
         else if x.state ≠ .partly then Refused .reelResume .badField s t
         else ∀ c, x.conform = some c →
           t.apart = { s with
             cst := { s.cst with reels := t.cst.reels },
             cfu := some { op := c.op, target := e, delta := c.delta, cursor := c.cursor } }.apart
           ∧ OneReel e { x with state := .conforming } s t ∧ Answered .reelResume .pending .nothing [] s t)

/-- A step of a shift (R47, R50, R51): the cue at the cursor has both frames moved and its conform-pending and waited flags
cleared, its ordering key is as it was, and the cursor advances in the unit and the record; the last step ends the
shift. -/
def Obligations.ShiftStepsMoveTheCues : Prop :=
  ∀ (op : Operation) (slot : Nat) (c : Cue) (s : State), s.cfu = some op → op.op = .shift →
    (s.reel op.target).order[op.cursor]? = some slot → s.cue op.target slot = some c → s.lnk.roomFor 1 →
    0 ≤ (c.vals.inPt : Int) + op.delta → 0 ≤ (c.vals.outPt : Int) + op.delta →
    ∃ t, exec .shiftStep s = .next t
      ∧ (let x := s.reel op.target
         let y := t.reel op.target
         let last := decide (op.cursor + 1 = x.order.length)
         let v : CueVals := { c.vals with
           inPt := (c.vals.inPt + op.delta).toNat, outPt := (c.vals.outPt + op.delta).toNat }
         t.apart = { s with
           cst := { s.cst with reels := t.cst.reels },
           cfu := if last then none else some { op with cursor := op.cursor + 1 },
           psc := { s.psc with refind := s.psc.refind || (last && decide (op.target = s.cst.playReel)) } }.apart
         ∧ Noticed (if last then [.conformDone op.target .shift] else []) s t
         ∧ (∀ r, r ≠ op.target → t.reel r = s.reel r)
         ∧ t.cue op.target slot = some { c with vals := v, conformPending := false, waited := false }
         ∧ (∀ k, k ≠ slot → t.cue op.target k = s.cue op.target k) ∧ y.order = x.order ∧ y.tag = x.tag
         ∧ (c.conformPending = true → x.delta = op.delta → y.key slot = x.key slot)
         ∧ if last then y.state = .opened ∧ y.conform = none ∧ PointsOf y
           else y.state = x.state ∧ y.earliest = x.earliest ∧ y.latest = x.latest
             ∧ y.conform = x.conform.map fun r => { r with cursor := op.cursor + 1 })

/-- REEL_COPY: its checks in order and the start of a copy (R48, R52, R53). -/
def Obligations.ReelCopyStarts : Prop :=
  ∀ (source dest : Byte) (delta : BitVec 32) (s : State), ∃ t, exec (.reelCopy source dest delta) s = .next t
    ∧ (let i : Instr := .reelCopy source dest delta
       let d := delta.toInt
       let last : Int := s.pos.rate.fDay - 1
       if ¬ (source.toNat ≤ 7 ∧ dest.toNat ≤ 7 ∧ source ≠ dest ∧ (d.natAbs : Int) ≤ last) then Refused i .badField s t
       else
         ∀ a b : Fin 8, reelOf source = some a → reelOf dest = some b →
           let x := s.reel a
           if s.cfu.isSome then Refused i .conformBusy s t
           else if x.state = .partly then Refused i .reelPartial s t
           else if x.state = .locked then Refused i .reelBusy s t
           else if (s.reel b).state ≠ .empty then Refused i .reelNotEmpty s t
           else if x.cues.any (fun p => p.2.pending.any fun e => e.fields.inPt.isSome || e.fields.outPt.isSome) then
             Refused i .passActive s t
           else if x.earliest.any (fun f => decide ((f : Int) + d < 0)) ∨ x.latest.any (fun f => decide (last < (f : Int) + d)) then
             Refused i .outOfDay s t
           else if x.state = .empty then t.apart = s.apart ∧ Answered i .done .nothing [] s t
           else
             t.apart = { s with
               cst := { s.cst with reels := t.cst.reels },
               cfu := some { op := .copy a, target := b, delta := d, cursor := 0 } }.apart
             ∧ t.reel a = { x with state := .locked }
             ∧ t.reel b = { s.reel b with
                 state := .conforming, conform := some { op := .copy a, delta := d, cursor := 0 } }
             ∧ (∀ r, r ≠ a → r ≠ b → t.reel r = s.reel r) ∧ Answered i .pending .nothing [] s t)

/-- A step of a copy (R1, R11, R47, R54, R55): a new READY record in the lowest free slot of the destination, with both frames
moved, in its place of the order list; the last step ends the copy and releases the source. The place is judged by the
keys that the step finds. -/
def Obligations.CopyStepsCreateTheCues : Prop :=
  ∀ (op : Operation) (src : Fin 8) (from' slot : Nat) (c : Cue) (s : State), s.cfu = some op → op.op = .copy src →
    src ≠ op.target → (s.reel src).order[op.cursor]? = some from' → s.cue src from' = some c →
    (s.reel op.target).lawful = true → s.cue op.target slot = none → (∀ k < slot, (s.cue op.target k).isSome = true) →
    slot < 160 → s.lnk.roomFor 1 → 0 ≤ (c.vals.inPt : Int) + op.delta → 0 ≤ (c.vals.outPt : Int) + op.delta →
    ∃ t, exec .copyStep s = .next t
      ∧ (let x := s.reel op.target
         let y := t.reel op.target
         let last := decide (op.cursor + 1 = (s.reel src).order.length)
         let v : CueVals := { c.vals with
           inPt := (c.vals.inPt + op.delta).toNat, outPt := (c.vals.outPt + op.delta).toNat }
         t.apart = { s with
           cst := { s.cst with reels := t.cst.reels },
           cfu := if last then none else some { op with cursor := op.cursor + 1 },
           psc := { s.psc with refind := s.psc.refind || decide (op.target = s.cst.playReel) } }.apart
         ∧ Noticed (if last then [.conformDone op.target (.copy src)] else []) s t
         ∧ (∀ r, r ≠ op.target → r ≠ src → t.reel r = s.reel r)
         ∧ t.reel src = (if last then { s.reel src with state := .opened } else s.reel src)
         ∧ t.cue op.target slot = some { loop := c.loop, vals := v, state := .ready, protect := false, waited := false,
                                         conformPending := false, nextTake := 1, takes := [], pending := none }
         ∧ (∀ k, k ≠ slot → t.cue op.target k = s.cue op.target k) ∧ y.cues.length = x.cues.length + 1
         ∧ JoinedOrder slot x.order { y with conform := x.conform } ∧ y.tag = x.tag
         ∧ if last then y.state = .opened ∧ y.conform = none ∧ PointsOf y
           else y.state = x.state ∧ y.earliest = x.earliest ∧ y.latest = x.latest
             ∧ y.conform = x.conform.map fun r => { r with cursor := op.cursor + 1 })

/-! ## The Pass Scheduler -/

/-- What an abort of passes does (R102 to R106): the contexts are FREE, each take that was OPEN is ABORTED with the lines held,
each cue is settled by the phase its pass was in, each PASS_END is raised in index order, and the releases and free
hand-overs are made; a state event into STOPPED, PASS_ABORT of all and an abort edge abort every pass; PASS_ABORT of one
context aborts that one alone and raises its PASS_END, or nothing where it is FREE. The cues that no aborted context serves
stay. On an abort edge cues are compared apart from the waited flag, which `PointerFollowsPicture` gives. The order list and
the header points follow the pending edits applied (R2, R11, R38); the re-find mark is set by a moved in-point, for the
edge after this one (R46, log entries 14, 15). Where a context was ACTIVE and none is left, a pending play reel is applied in
the same event: the play reel is it, REEL_SWITCHED follows the PASS_ENDs, the mark is set, and an abort edge leaves the
pointer unset (R8, R91). -/
def Obligations.AbortsEndEveryPass : Prop :=
  ∀ (e : FrameEdge) (dir : Dir) (code : Byte) (s : State), s.cst.lawful = true → s.PassesLawful →
    (let freed (k : Fin 4) : List Instr := (s.ctx k).elim [] fun c => [Instr.release k c.loop, Instr.freeHandover k]
     let taken (c : Ctx) (x : Take) : Take :=
       if c.take = some x.number ∧ x.result = .opened then { x with result := .aborted, lines := c.held } else x
     let settled (c : Ctx) (cue : Cue) : Cue :=
       { cue.afterPass (decide (c.phase = .tail)) with takes := cue.takes.map (taken c) }
     let endOf (cause : AbortCause) (k : Fin 4) : Option Notice :=
       (s.ctx k).bind fun c => (s.cue c.reel c.slot).map fun cue =>
         .passEnd k c.reel c.loop (.aborted cause) c.phase
           (c.take.bind fun n => ((cue.takes.find? fun x => decide (x.number = n)).map (taken c)))
     let ends (cause : AbortCause) : List Notice := allCtx.filterMap (endOf cause)
     let unserved (slot : Nat) : Prop := ∀ (k : Fin 4) (c : Ctx), s.ctx k = some c → c.slot ≠ slot
     let active : Bool := allCtx.any fun k => (s.ctx k).isSome
     let switch : Option (Fin 8) := if active then s.cst.pendingPlay else none
     let moved (t : State) : Bool := decide ((t.reel s.cst.playReel).inPoints ≠ s.playReel.inPoints)
     let ended (cause : AbortCause) (t : State) : Prop :=
       t.apart = { s with cst := t.cst, psc := t.psc, raised := t.raised }.apart ∧ (∀ k : Fin 4, t.ctx k = none)
       ∧ t.cst.editReel = s.cst.editReel ∧ t.cst.playReel = switch.getD s.cst.playReel
       ∧ t.cst.pendingPlay = (if active then none else s.cst.pendingPlay)
       ∧ ReelSettled s.playReel (t.reel s.cst.playReel) ∧ (t.reel s.cst.playReel).state = s.playReel.state
       ∧ (∀ r, r ≠ s.cst.playReel → t.reel r = s.reel r)
       ∧ (∀ (k : Fin 4) (c : Ctx) (cue : Cue), s.ctx k = some c → s.cue c.reel c.slot = some cue →
           (t.cue c.reel c.slot).map Cue.unwaited = some (settled c cue).unwaited)
       ∧ (∀ slot, unserved slot →
           (t.cue s.cst.playReel slot).map Cue.unwaited = (s.cue s.cst.playReel slot).map Cue.unwaited)
       ∧ (s.lnk.roomFor 5 →
           (s.lnk.noticesHeld ++ ends cause ++ switch.toList.map .reelSwitched) <+: t.lnk.noticesHeld)
     let kept (t : State) : Prop :=
       t.psc.pointer = s.psc.pointer ∧ t.psc.refind = (s.psc.refind || moved t || switch.isSome)
       ∧ (∀ slot, unserved slot → t.cue s.cst.playReel slot = s.cue s.cst.playReel slot)
       ∧ ∀ (k : Fin 4) (c : Ctx) (cue : Cue), s.ctx k = some c → s.cue c.reel c.slot = some cue →
           t.cue c.reel c.slot = some (settled c cue)
     (∃ t, exec (.pscStateEvent .stopped dir) s = .next t ∧ ended .stopped t ∧ kept t
       ∧ t.raised = s.raised.erase (Instr.pscStateEvent .stopped dir) ++ allCtx.flatMap freed)
     ∧ (∃ t, exec (.passAbort 0xFF) s = .next t ∧ ended .commanded t ∧ kept t ∧ t.raised = s.raised ++ allCtx.flatMap freed
       ∧ t.lastAnswer = some { kind := 0x18, result := .done, data := .aborted s.activeSet })
     ∧ (runningEdge e = false → ∃ t, exec (.pscFrameEdge e) s = .next t
       ∧ ended (if e.jump then .jump else if e.dir = .reverse then .reverse else .offSpeed) t
       ∧ t.psc.refind = (moved t || switch.isSome) ∧ (switch.isSome = true → t.psc.pointer = none)
       ∧ t.raised = s.raised.erase (Instr.pscFrameEdge e) ++ allCtx.flatMap freed
           ++ [Instr.laneReport { n := e.n, state := e.state, lanes := [] }])
     ∧ (∀ state, state ≠ .stopped →
         exec (.pscStateEvent state dir) s = .next { s with raised := s.raised.erase (Instr.pscStateEvent state dir) })
     ∧ ∃ t, exec (.passAbort code) s = .next t
       ∧ (4 ≤ code.toNat → code ≠ 0xFF → Refused (.passAbort code) .badField s t)
       ∧ ∀ k : Fin 4, code.toNat = k.val →
           let switch : Option (Fin 8) :=
             if (s.ctx k).isSome && allCtx.all (fun j => decide (j = k) || (s.ctx j).isNone) then s.cst.pendingPlay else none
           let answer : AnswerData := .aborted (if (s.ctx k).isSome then 1#8 <<< k.val else 0#8)
           t.apart = { s with cst := t.cst, psc := t.psc, raised := s.raised ++ freed k }.apart
           ∧ t.ctx k = none ∧ (∀ j, j ≠ k → t.ctx j = s.ctx j) ∧ t.psc.pointer = s.psc.pointer
           ∧ t.cst.editReel = s.cst.editReel ∧ t.cst.playReel = switch.getD s.cst.playReel
           ∧ t.cst.pendingPlay = (if switch.isSome then none else s.cst.pendingPlay)
           ∧ t.psc.refind = (s.psc.refind || moved t || switch.isSome)
           ∧ ReelSettled s.playReel (t.reel s.cst.playReel) ∧ (t.reel s.cst.playReel).state = s.playReel.state
           ∧ (∀ r, r ≠ s.cst.playReel → t.reel r = s.reel r)
           ∧ (∀ (c : Ctx) (cue : Cue), s.ctx k = some c → s.cue c.reel c.slot = some cue →
               t.cue c.reel c.slot = some (settled c cue))
           ∧ (∀ slot, (∀ c, s.ctx k = some c → c.slot ≠ slot) → t.cue s.cst.playReel slot = s.cue s.cst.playReel slot)
           ∧ t.lastAnswer = some { kind := 0x18, result := .done, data := answer }
           ∧ (s.lnk.roomFor 2 → Answered (.passAbort code) .done answer
               ((endOf .commanded k).toList ++ switch.toList.map .reelSwitched) s t))

/-- The next-cue pointer at every edge (R86 to R89, R91): found by `PointerWork` from the play reel as step 2 meets it, which on
a running edge is the reel as the edge finds it, and on an abort edge the reel as the aborts leave it, with the mark as the
edge found it (R46, log entry 14). The MISSED notices follow the PASS_ENDs of the aborts and come before all others; the
cues tested have their waited flags cleared; a moved in-point sets the mark for the edge after this one. Where the edge
applies a pending play reel the pointer is left unset and the mark set. On an abort edge with no pass in flight nothing
else changes. -/
def Obligations.PointerFollowsPicture : Prop :=
  ∀ (e : FrameEdge) (s : State), s.cst.lawful = true → (s.PassesLawful ∨ ∀ k : Fin 4, s.ctx k = none) →
    ∃ t, exec (.pscFrameEdge e) s = .next t
      ∧ (let play := s.cst.playReel
         let active : Nat := (allCtx.filter fun k => (s.ctx k).isSome).length
         let switches : Bool := s.cst.pendingPlay.isSome && t.cst.pendingPlay.isNone
         let moved : Bool := decide ((t.reel play).inPoints ≠ s.playReel.inPoints)
         let waited (slot : Nat) : Bool := (s.cue play slot).any fun c =>
           if allCtx.any (fun k => (s.ctx k).any fun d => d.slot == slot) then (c.afterPass false).waited else c.waited
         (runningEdge e = true → ∃ (q : Nat) (tested : List Nat) (ns : List Notice),
           PointerWork e s.pos.rate s.playReel (fun slot => (s.cue play slot).any fun c => c.waited) s.psc.pointer s.psc.refind
             q tested ns
           ∧ t.psc.pointer = (if switches then none else some q) ∧ t.psc.refind = (moved || switches)
           ∧ (∀ slot ∈ tested, ∀ c, t.cue play slot = some c → c.waited = false)
           ∧ (s.lnk.roomFor ns.length → (s.lnk.noticesHeld ++ ns) <+: t.lnk.noticesHeld))
         ∧ (runningEdge e = false → switches = true → t.psc.pointer = none ∧ t.psc.refind = true)
         ∧ (runningEdge e = false → switches = false → ∃ (q : Nat) (tested : List Nat) (ns : List Notice),
           PointerWork e s.pos.rate (t.reel play) waited s.psc.pointer s.psc.refind q tested ns
           ∧ t.psc.pointer = some q ∧ t.psc.refind = moved
           ∧ (∀ slot c, t.cue play slot = some c → c.waited = (decide (slot ∉ tested) && waited slot))
           ∧ (s.lnk.roomFor (active + ns.length) → t.lnk.noticesHeld.length = s.lnk.noticesHeld.length + active + ns.length
               ∧ s.lnk.noticesHeld <+: t.lnk.noticesHeld ∧ ns <:+ t.lnk.noticesHeld)
           ∧ (active = 0 →
               t.apart = { s with
                 cst := { s.cst with reels := t.cst.reels },
                 psc := { s.psc with pointer := some q, refind := false },
                 raised := s.raised.erase (Instr.pscFrameEdge e)
                   ++ [Instr.laneReport { n := e.n, state := e.state, lanes := [] }] }.apart
               ∧ (∀ r, r ≠ play → t.reel r = s.reel r) ∧ { t.reel play with cues := [] } = { s.reel play with cues := [] }
               ∧ (∀ slot, t.cue play slot = if slot ∈ tested then (s.cue play slot).map Cue.unwaited else s.cue play slot)
               ∧ (s.lnk.roomFor ns.length → Noticed ns s t))))

/-- A running edge as a whole, and its entries (R85, R90 to R95, R97, R118). The candidates among the eight cues from the
pointer that step 2 of the edge leaves (`PointerWork`) take the FREE contexts in slice order, lowest index first, a context
that closes at the edge among them; those that find all four ACTIVE are marked waited; a cue that closes at the edge is no
candidate; an entry on the frame before the in-point does its staging work at once. On a CONFORMING or PARTIAL play reel no
cue enters and none is marked waited. While a pending play reel is present no cue enters (R8), and one is marked waited only
where all four contexts stay ACTIVE; R91 to R93 do not name the condition, and that R8 sets it is the model's reading (log
entry 31). Which contexts close at the edge is `Ctx.closesOn`, the model's reading for a pass that crosses midnight, which
closes at X − F_day only from its TAIL (log entry 16).
The edge raises the events and notices of the passes in flight (`Ctx.workOn`), then those of the entries, then the lane
report with the index and phase of every context that is ACTIVE at the end (R118); a close that leaves none ACTIVE applies a
pending play reel. Nothing else outside the link changes but the pointer, the contexts and the play reel: the cues of it that
no context serves and that neither enter nor are marked waited stay, but that a tested cue has its waited flag cleared. With
every context FREE its header and order list stay too. -/
def Obligations.EntriesFollowTheSlice : Prop :=
  ∀ (e : FrameEdge) (s : State), s.cst.lawful = true → (s.PassesLawful ∨ ∀ k : Fin 4, s.ctx k = none) → runningEdge e = true →
    ∃ (t : State) (q : Nat) (tested : List Nat) (ns : List Notice), exec (.pscFrameEdge e) s = .next t
      ∧ PointerWork e s.pos.rate s.playReel (fun slot => (s.cue s.cst.playReel slot).any fun c => c.waited) s.psc.pointer
          s.psc.refind q tested ns
      ∧ (let play := s.cst.playReel
         let n := e.n
         let works : List PassWork := allCtx.filterMap fun k =>
           (s.ctx k).bind fun c => (s.cue c.reel c.slot).map fun cue => c.workOn s.pos.rate n k cue
         let frees : List (Fin 4) := allCtx.filter fun k => (s.ctx k).all (Ctx.closesOn s.pos.rate n)
         let allFree : Bool := allCtx.all fun k => (s.ctx k).isNone
         let switch : Option (Fin 8) := if frees.length = 4 ∧ allFree = false then s.cst.pendingPlay else none
         let barred : Bool := decide (s.playReel.state = .conforming ∨ s.playReel.state = .partly)
         let pending : Bool := s.cst.pendingPlay.isSome
         let entry (c : Cue) : Nat := c.vals.inPt - max (c.vals.beeps * c.vals.spacing) (max c.vals.streamer 1)
         let candidate (slot : Nat) : Option (Nat × Cue × ArmKind) := (s.cue play slot).bind fun c =>
           match c.state with
           | .armed kind =>
             if c.conformPending = false ∧ entry c ≤ n ∧ n < c.vals.inPt then some (slot, c, kind) else none
           | .ready | .passing _ | .done => none
         let cands := if barred then [] else ((s.playReel.order.drop q).take 8).filterMap candidate
         let enters := if pending then [] else cands.take frees.length
         let waits := if pending = true ∧ frees ≠ [] then [] else cands.drop frees.length
         let staging (x : Nat × Cue × ArmKind) : Bool := decide (n + 1 = x.2.1.vals.inPt ∧ x.2.2 = .record)
         let room (c : Cue) : Bool := decide (c.nextTake ≠ 100) && !(decide (6 ≤ c.takes.length) && c.takes.all fun x => x.circled)
         let reserves (x : Nat × Cue × ArmKind) : Bool := staging x && room x.2.1
         let newTake (c : Cue) : Take :=
           { number := c.nextTake, result := .opened, lines := 0, late := decide (entry c < n), guardTripped := false,
             offset := none, circled := false }
         let takes (c : Cue) : List Take :=
           (if 6 ≤ c.takes.length then c.takes.eraseP (fun x => !x.circled) else c.takes) ++ [newTake c]
         let handed (x : Fin 4 × Nat × Cue × ArmKind) : List Instr :=
           Instr.entryHandover x.1 n :: if reserves x.2 then
             [Instr.stageRequest { ctx := x.1, loop := x.2.2.1.loop, action := .punchIn, lines := x.2.2.1.vals.lines,
                                   target := x.2.2.1.vals.inPt }] else []
         let told (x : Fin 4 × Nat × Cue × ArmKind) : List Notice :=
           .passBegin x.1 play x.2.2.1.loop x.2.2.1.vals.char x.2.2.2 (decide (entry x.2.2.1 < n))
             :: if staging x.2 && !room x.2.2.1 then [.takesFull x.2.2.1.loop] else []
         let events : List Instr := works.flatMap (fun w => w.events) ++ (frees.zip enters).flatMap handed
         let lanes (t : State) : List (Fin 4 × Phase) := allCtx.filterMap fun k => (t.ctx k).map fun c => (k, c.phase)
         let all : List Notice := ns ++ works.flatMap (fun w => w.notices) ++ switch.toList.map .reelSwitched
           ++ (frees.zip enters).flatMap told
         (∀ (i : Nat) (k : Fin 4), frees[i]? = some k → t.ctx k = (enters[i]?).map fun x =>
             { reel := play, slot := x.1, loop := x.2.1.loop,
               kind := if staging x && !room x.2.1 then .rehearse else x.2.2, phase := .lead, entry := entry x.2.1,
               close := x.2.1.vals.outPt + x.2.1.vals.tail, late := decide (entry x.2.1 < n), granted := 0, held := 0,
               released := 0, take := if reserves x then some x.2.1.nextTake else none })
         ∧ (∀ x ∈ enters, t.cue play x.1 = some { x.2.1 with
               state := .passing x.2.2, waited := false,
               takes := if reserves x then takes x.2.1 else x.2.1.takes,
               nextTake := if reserves x then x.2.1.nextTake + 1 else x.2.1.nextTake })
         ∧ (∀ x ∈ waits, t.cue play x.1 = some { x.2.1 with waited := true })
         ∧ (∀ slot, (∀ (k : Fin 4) (c : Ctx), s.ctx k = some c → c.slot ≠ slot) → (∀ x ∈ enters ++ waits, x.1 ≠ slot) →
             t.cue play slot = (s.cue play slot).map fun c => { c with waited := c.waited && decide (slot ∉ tested) })
         ∧ (∀ r, r ≠ play → t.reel r = s.reel r)
         ∧ t.apart = { s with
             cst := { s.cst with
               reels := t.cst.reels, playReel := switch.getD play,
               pendingPlay := if switch.isSome then none else s.cst.pendingPlay },
             psc := t.psc,
             raised := s.raised.erase (Instr.pscFrameEdge e) ++ events
               ++ [Instr.laneReport { n := n, state := e.state, lanes := lanes t }] }.apart
         ∧ ((s.lnk.roomFor all.length ∨ t.lnk.overrun = false) → Noticed all s t)
         ∧ (allFree = true → t.psc.pointer = some q ∧ t.psc.refind = false
           ∧ { t.reel play with cues := [] } = { s.reel play with cues := [] }))

/-- A pass in flight at a running edge (R85, R96, R97, R99 to R101, R150 to R153), in the terms of `Ctx.workOn`: its phase,
its staging work, the close of its take at the out-point, and its close at X. Cues are compared apart from the waited flag;
the cues that no context serves, and all that the edge raises in order, are in `EntriesFollowTheSlice`. The order list and
the header points follow the pending edits that closes apply (R2, R11, R38). A pass that stays keeps the play reel; where
every pass in flight closes at the edge, a pending play reel is applied, its notice after the PASS_END, the pointer is unset
and nothing enters (R8, R91).
A pass whose X lies beyond midnight is in TAIL from its out-point on, stays there across midnight, and closes on frame
X − F_day (R85, R96). That it closes there, and leaves the table of R96, only once it is in TAIL, and that a pass on a frame
of none of the ranges keeps its phase, is the model's reading (log entry 16). The lines released by the punch-out of the
same edge count as held (log entry 23); a punch-out request carries no lines, written as the empty set (log entry 29). -/
def Obligations.PassesFollowTheFrame : Prop :=
  ∀ (e : FrameEdge) (k : Fin 4) (c : Ctx) (cue : Cue) (s : State), s.cst.lawful = true → s.PassesLawful →
    runningEdge e = true → s.ctx k = some c → s.cue c.reel c.slot = some cue →
    ∃ t, exec (.pscFrameEdge e) s = .next t
      ∧ (let w := c.workOn s.pos.rate e.n k cue
         let closes := c.closesOn s.pos.rate e.n
         ReelSettled s.playReel (t.reel s.cst.playReel) ∧ (t.reel s.cst.playReel).state = s.playReel.state
         ∧ (∀ r, r ≠ s.cst.playReel → t.reel r = s.reel r)
         ∧ (t.cue c.reel c.slot).map Cue.unwaited = some w.cue.unwaited
         ∧ w.events.Sublist t.raised ∧ (t.lnk.overrun = false → w.notices.Sublist t.lnk.noticesHeld)
         ∧ (closes = false →
             t.ctx k = w.stays ∧ t.cst.playReel = s.cst.playReel ∧ t.cst.pendingPlay = s.cst.pendingPlay)
         ∧ (closes = true → ∀ d, t.ctx k = some d → d.slot ≠ c.slot)
         ∧ (closes = true → (∀ (j : Fin 4) (d : Ctx), s.ctx j = some d → d.closesOn s.pos.rate e.n = true) →
             ∀ r, s.cst.pendingPlay = some r →
               t.cst.playReel = r ∧ t.cst.pendingPlay = none ∧ t.psc.pointer = none ∧ t.psc.refind = true
               ∧ (∀ j : Fin 4, t.ctx j = none)
               ∧ (t.lnk.overrun = false → (w.notices ++ [Notice.reelSwitched r]).Sublist t.lnk.noticesHeld)))

/-- What the Pass Scheduler does with a punch report and a guard report (R98, R99, R144, R154). It takes them in the order in
which the Punch Unit made them (R144): one for which an older one waits is not taken, which the model writes as no change
(log entry 1). `released` is the model's (log entry 23). -/
def Obligations.ReportsReachTheContexts : Prop :=
  ∀ (r : PunchReport) (s : State), s.PassesLawful →
    let first : Option Instr := s.raised.find? fun i => match i with
      | .punchReport _ | .guardReport => true
      | _ => false
    (first.any (fun i => decide (i ≠ .punchReport r)) = true → exec (.punchReport r) s = .next s)
    ∧ (first.any (fun i => decide (i ≠ .guardReport)) = true → exec .guardReport s = .next s)
    ∧ (first.all (fun i => decide (i = .punchReport r)) = true → exec (.punchReport r) s = .next { s with
      raised := s.raised.erase (Instr.punchReport r),
      psc := { s.psc with ctxs := s.psc.ctxs.set r.ctx ((s.ctx r.ctx).map fun c =>
        if c.loop = r.loop then
          match r.action with
          | .punchIn => { c with granted := r.lines, held := r.lines, released := 0 }
          | .punchOut => { c with held := 0, released := c.held }
        else c) } })
    ∧ (first.all (fun i => decide (i = .guardReport)) = true → ∃ t, exec .guardReport s = .next t
      ∧ t = { s with cst := { s.cst with reels := t.cst.reels }, psc := t.psc, raised := s.raised.erase Instr.guardReport }
      ∧ t.psc.pointer = s.psc.pointer ∧ t.psc.refind = s.psc.refind
      ∧ (∀ k : Fin 4, t.ctx k = (s.ctx k).map fun c => { c with held := 0, released := 0 })
      ∧ (∀ r : Fin 8, { t.reel r with cues := [] } = { s.reel r with cues := [] })
      ∧ (∀ (r : Fin 8) (slot : Nat), (∀ k c, s.ctx k = some c → ¬ (c.reel = r ∧ c.slot = slot)) →
          t.cue r slot = s.cue r slot)
      ∧ ∀ (k : Fin 4) (c : Ctx), s.ctx k = some c → t.cue c.reel c.slot = (s.cue c.reel c.slot).map fun cue =>
          { cue with takes := cue.takes.map fun x =>
              if c.take = some x.number ∧ x.result = .opened then { x with guardTripped := true } else x })

/-! ## The Count-In Unit -/

/-- A tick (R109, R111, R112, R115, R116): a forward tick finds the current beat and the gate of each context in use afresh, a
reverse tick closes every gate, and the tone generator follows the gates. The count-in values are those copied at the entry
hand-over, where R110 reads the cue through the context: the model's choice (log entry 8); a beat state in use that holds no
values, as an entry hand-over of a FREE context leaves it, is not spoken of at a forward tick. That the divider keeps its
value when a tick leaves nothing sounding is the model's choice too (`ToneFollows`, log entry 6). -/
def Obligations.TicksFindTheBeepGates : Prop :=
  ∀ (tick : Nat) (dir : Dir) (s : State),
    (∀ (k : Fin 4) (c : CountIn), s.ciu.beats[k].cue = some c → c.beeps ≤ 4) →
    ∃ t, exec (.ciuTick tick dir) s = .next t
      ∧ t = { s with ciu := t.ciu, raised := s.raised.erase (Instr.ciuTick tick dir) }
      ∧ t.ciu.last = some (tick, dir) ∧ ToneFollows s.ciu t.ciu
      ∧ ∀ k : Fin 4, t.ciu.beats[k].start = s.ciu.beats[k].start ∧ t.ciu.beats[k].cue = s.ciu.beats[k].cue
        ∧ (dir = .reverse → t.ciu.beats[k].current = none ∧ t.ciu.beats[k].gate = false)
        ∧ (dir = .forward → s.ciu.beats[k].start = none → t.ciu.beats[k] = s.ciu.beats[k])
        ∧ (dir = .forward → ∀ (start : Nat) (c : CountIn), s.ciu.beats[k].start = some start → s.ciu.beats[k].cue = some c →
            BeatFound start c tick t.ciu.beats[k])

/-- The hand-overs of the Pass Scheduler (R110, R111) and the end of a half wave (R114), each in every state: an entry sets the
beat state in use and finds its gate against the last tick, whichever its direction (the model's choice after a reverse tick,
where R112 keeps gates closed: log entry 33), a free clears it, the tone generator follows, and each half wave turns the
level. That the divider keeps its value when a hand-over leaves nothing sounding is the model's choice (`ToneFollows`, log
entry 6). The values the Count-In Unit reads through the context are those of the cue at the entry hand-over, and a FREE
context gives none (log entry 8). A half wave with nothing sounding does nothing (log entry 20). -/
def Obligations.HandoversSetTheBeatStates : Prop :=
  ∀ (k : Fin 4) (start : Nat) (s : State),
    (∃ t, exec (.entryHandover k start) s = .next t
      ∧ t = { s with ciu := t.ciu, raised := s.raised.erase (Instr.entryHandover k start) }
      ∧ t.ciu.last = s.ciu.last ∧ ToneFollows s.ciu t.ciu ∧ (∀ j : Fin 4, j ≠ k → t.ciu.beats[j] = s.ciu.beats[j])
      ∧ t.ciu.beats[k].start = some start
      ∧ (s.ciu.last = none → t.ciu.beats[k].current = none ∧ t.ciu.beats[k].gate = false)
      ∧ (s.ctx k = none → t.ciu.beats[k] = { start := some start, cue := none, current := none, gate := false })
      ∧ ∀ (c : Ctx) (cue : Cue), s.ctx k = some c → s.cue c.reel c.slot = some cue →
        (let v : CountIn := { inPt := cue.vals.inPt, beeps := cue.vals.beeps, spacing := cue.vals.spacing,
                              onTime := cue.vals.onTime, tone := cue.vals.tone }
         t.ciu.beats[k].cue = some v
         ∧ (cue.vals.beeps ≤ 4 →
             ∀ (tick : Nat) (dir : Dir), s.ciu.last = some (tick, dir) → BeatFound start v tick t.ciu.beats[k])))
    ∧ (∃ t, exec (.freeHandover k) s = .next t
      ∧ t = { s with ciu := t.ciu, raised := s.raised.erase (Instr.freeHandover k) }
      ∧ t.ciu.last = s.ciu.last ∧ ToneFollows s.ciu t.ciu ∧ (∀ j : Fin 4, j ≠ k → t.ciu.beats[j] = s.ciu.beats[j])
      ∧ t.ciu.beats[k] = { start := none, cue := none, current := none, gate := false })
    ∧ exec .toneHalfWave s = .next (
        if s.ciu.tone.sounding.isSome then
          { s with ciu := { s.ciu with tone := { s.ciu.tone with level := !s.ciu.tone.level, count := some 0 } } }
        else s)
    ∧ s.ciu.tone.halfPeriods = 1 + s.ciu.tone.divider

/-! ## The Overlay Composer -/

/-- A lane report (R119 to R122, R124, R126): discarded while the overlay is quiet, otherwise one descriptor is composed, with
a lane for each reported context, and handed to the port. One for which an older state event or report of the overlay waits
is not taken, so that the report of a lock edge comes after its state event (R119), which the model writes as no change
(log entry 1). Column and digit appear in LEAD alone and flash in LINE alone
(log entry 26). The bytes of a descriptor on OVL DATA (R180, R185, R186): start, frame number, state, lane count, five bytes
a lane, and the check that makes the sum of the bytes after the start 0 modulo 256. -/
def Obligations.DescriptorsShowThePasses : Prop :=
  (∀ d : Descriptor, d.frame < 16777216 → d.lanes.length ≤ 4 →
    (∀ l ∈ d.lanes, l.colour ≤ 7 ∧ l.digit.all (fun x => decide (1 ≤ x ∧ x ≤ 4)) = true
      ∧ l.column.all (fun x => decide (x ≤ 959)) = true) →
    (let b (i : Nat) : Nat := (d.bytes.getD i 0).toNat
     d.bytes.length = 7 + 5 * d.lanes.length ∧ d.bytes.head? = some 0xA7 ∧ byteSum d.bytes.tail = 0
     ∧ 65536 * b 1 + 256 * b 2 + b 3 = d.frame
     ∧ b 4 = (match d.state with | .unknown => 0 | .locked => 1 | .freewheel => 2 | .stopped => 3)
     ∧ b 5 = d.lanes.length
     ∧ ∀ (i : Nat) (l : Lane), d.lanes[i]? = some l →
         b (6 + 5 * i) = l.ctx.val + 4 * (match l.phase with | .lead => 0 | .line => 1 | .tail => 2)
           + (if l.flash then 16 else 0) + (if l.bar then 32 else 0)
         ∧ b (7 + 5 * i) = l.char.toNat ∧ b (8 + 5 * i) = l.colour + 16 * l.digit.getD 0
         ∧ 256 * b (9 + 5 * i) + b (10 + 5 * i) = l.column.getD 65535))
  ∧ ∀ (r : LaneReport) (s : State),
    let first : Option Instr := s.raised.find? fun i => match i with
      | .laneReport _ | .ovlStateEvent _ _ => true
      | _ => false
    (first.any (fun i => decide (i ≠ .laneReport r)) = true → exec (.laneReport r) s = .next s)
    ∧ (first.all (fun i => decide (i = .laneReport r)) = true →
    (∀ l ∈ r.lanes, ∃ c cue, s.ctx l.1 = some c ∧ s.cue c.reel c.slot = some cue ∧ cue.vals.beeps ≤ 4) →
    ∃ t, exec (.laneReport r) s = .next t
      ∧ (s.ovl.quiet = true → t = { s with raised := s.raised.erase (Instr.laneReport r) })
      ∧ (s.ovl.quiet = false → ∃ d : Descriptor,
          t = { s with
            ovl := if s.ovl.wire = none then { s.ovl with wire := some d } else { s.ovl with waiting := some d },
            raised := s.raised.erase (Instr.laneReport r) }
          ∧ d.frame = r.n ∧ d.state = r.state ∧ d.lanes.length = r.lanes.length
          ∧ ∀ (i : Nat) (k : Fin 4) (phase : Phase) (c : Ctx) (cue : Cue), r.lanes[i]? = some (k, phase) →
              s.ctx k = some c → s.cue c.reel c.slot = some cue →
              ∃ l : Lane, d.lanes[i]? = some l
                ∧ (let v := cue.vals
                   let n : Int := r.n
                   let first : Int := (v.inPt : Int) - v.streamer
                   l.ctx = k ∧ l.char = v.char ∧ l.colour = v.colour ∧ l.phase = phase ∧ l.bar = decide (phase = .line)
                   ∧ l.column = (if phase = .lead ∧ 0 < v.streamer ∧ first ≤ n ∧ r.n < v.inPt then
                       some ((960 * (n - first)) / v.streamer).toNat else none)
                   ∧ l.column.all (fun x => decide (x ≤ 959)) = true
                   ∧ (∀ digit : Nat, l.digit = some digit ↔ phase = .lead ∧ ∃ j : Fin 5, 1 ≤ j.val ∧ j.val ≤ v.beeps
                       ∧ digit = v.beeps - j.val + 1 ∧ v.countIn.beatFrame j.val ≤ n
                       ∧ n < if j.val = v.beeps then (v.inPt : Int) else v.countIn.beatFrame (j.val + 1))
                   ∧ l.flash = decide (phase = .line ∧ v.inPt ≤ r.n ∧ r.n < v.inPt + s.ovl.flash ∧ r.n < v.outPt))))

/-- State events at the Overlay Composer and the end of a descriptor (R119, R126): the quiet mark, the descriptor without
lanes of STOPPED and UNKNOWN, and the waiting descriptor sent next. A state event for which an older state event or lane
report waits is not taken, which the model writes as no change (log entry 1); that of UNKNOWN waits for no report, since
R119 lets either go first. The STOPPED frame is the one the position holds when the event is taken (log entry 17). An end
with nothing on the wire does nothing (log entry 20). -/
def Obligations.OverlayPortSendsInOrder : Prop :=
  ∀ (state : PosState) (dir : Dir) (s : State),
    let first : Option Instr := s.raised.find? fun i => match i with
      | .laneReport _ => decide (state ≠ .unknown)
      | .ovlStateEvent _ _ => true
      | _ => false
    let handed (frame : Nat) : Ovl :=
      let d : Descriptor := { frame := frame, state := state, lanes := [] }
      if s.ovl.wire = none then { s.ovl with quiet := true, wire := some d }
      else { s.ovl with quiet := true, waiting := some d }
    (first.any (fun i => decide (i ≠ .ovlStateEvent state dir)) = true → exec (.ovlStateEvent state dir) s = .next s)
    ∧ (first.all (fun i => decide (i = .ovlStateEvent state dir)) = true → exec (.ovlStateEvent state dir) s = .next { s with
      raised := s.raised.erase (Instr.ovlStateEvent state dir)
      ovl := match state with
        | .locked => { s.ovl with quiet := false }
        | .freewheel => s.ovl
        | .stopped => handed s.pos.n
        | .unknown => handed 0 })
    ∧ (s.ovl.wire ≠ none → exec .descriptorSent s
        = .next { s with ovl := { s.ovl with wire := s.ovl.waiting, waiting := none } })
    ∧ (s.ovl.wire = none → exec .descriptorSent s = .next s)

/-- SET_FLASH stores its length brought into 1 to 3, in every state; a cold reset sets 1 and a warm reset keeps it (R125).
SET_VOICE stores its two values, 0 as 1 and above 48 as 48, and leaves the run alone (R162). -/
def Obligations.FlashAndVoiceSettingsAreStored : Prop :=
  ∀ (length qualify allowance : Byte) (byLine : Bool) (s : State),
    (∃ t, exec (.setFlash length) s = .next t
      ∧ t.apart = { s with ovl := { s.ovl with
          flash := if length = 0 then 1 else if 3 < length.toNat then 3 else length.toNat } }.apart
      ∧ Answered (.setFlash length) (if 1 ≤ length.toNat ∧ length.toNat ≤ 3 then .done else .adjusted) .nothing [] s t)
    ∧ (∃ t, exec .coldReset s = .next t ∧ t.ovl.flash = 1)
    ∧ (∃ t, exec (.warmReset byLine) s = .next t ∧ t.ovl.flash = s.ovl.flash)
    ∧ ∃ t, exec (.setVoice qualify allowance) s = .next t
      ∧ t.apart = { s with vgt := { s.vgt with
          qualify := if qualify = 0 then 1 else qualify.toNat,
          allowance := if 48 < allowance.toNat then 48 else allowance.toNat } }.apart
      ∧ Answered (.setVoice qualify allowance) (if qualify = 0 ∨ 48 < allowance.toNat then .adjusted else .done) .nothing []
          s t

/-! ## The Punch Unit -/

/-- A frame edge at the Punch Unit (R129, R134 to R137, R140): punch-outs, then punch-ins in index order, then the manual
entry; which lines move, which reports and notices follow, and which entries stay. -/
def Obligations.PunchesAreTransferredAtTheirFrame : Prop :=
  ∀ (e : FrameEdge) (s : State), s.lnk.roomFor 9 →
    ∃ t, exec (.pchFrameEdge e) s = .next t
      ∧ (let p := s.pch
         let due (a : Action) (j : Fin 4) : Option Staged := p.staged[j].filter fun x => decide (x.action = a ∧ x.target = e.n)
         let freed (k : Fin 8) : Line :=
           match p.lines[k].owner with
           | .context j =>
             if (due .punchOut j).isSome then { p.lines[k] with owner := .nobody, isIn := false } else p.lines[k]
           | .nobody => p.lines[k]
           | .manual => p.lines[k]
         let taker (k : Fin 8) : Option (Fin 4) :=
           if (freed k).mode = .cue ∧ (freed k).owner = .nobody ∧ p.unit = .normal then
             allCtx.find? fun j => (due .punchIn j).any fun x => inSet k x.lines
           else none
         let mid : Pch := { p with lines := Vector.ofFn fun k => match taker k with
           | some j => { freed k with owner := .context j, isIn := true }
           | none => freed k }
         let owned (j : Fin 4) : LineSet := setOf fun k => decide (p.lines[k].owner = .context j)
         let granted (j : Fin 4) : LineSet := setOf fun k => decide (taker k = some j)
         let reports : List Instr :=
           (allCtx.filterMap fun j => (due .punchOut j).map fun x =>
             .punchReport { ctx := j, loop := x.loop, action := .punchOut, lines := owned j })
           ++ allCtx.filterMap fun j => (due .punchIn j).map fun x =>
             .punchReport { ctx := j, loop := x.loop, action := .punchIn, lines := granted j }
         let notices : List Notice :=
           (allCtx.filterMap fun j => (due .punchOut j).map fun _ => .punch (.context j) 0 (owned j) 0)
           ++ (allCtx.filterMap fun j => (due .punchIn j).map fun x =>
             .punch (.context j) (granted j) 0 (x.lines &&& ~~~(granted j)))
           ++ (p.manual.map fun m => manualNotice m mid).toList
         t.apart = { s with pch := t.pch, raised := s.raised.erase (Instr.pchFrameEdge e) ++ reports }.apart
         ∧ t.pch = { p with lines := t.pch.lines, staged := t.pch.staged, manual := none, lastEdge := some e.n }
         ∧ (∀ j : Fin 4, t.pch.staged[j] = if p.staged[j].any (fun x => decide (x.target = e.n)) then none else p.staged[j])
         ∧ (p.manual = none → ∀ k : Fin 8, t.pch.lines[k] = mid.lines[k])
         ∧ (∀ m, p.manual = some m → ManualMoved m mid t.pch)
         ∧ Noticed notices s t)

/-- Stage requests and releases (R133, R138): an older entry of the context is transferred first; the new one is placed, or
transferred at once where its target is the frame of the last edge taken; a release discards the entry and puts out every
line the context owns. The Punch Unit takes them in the order in which the scheduler made them (R133): one for which an
older one waits is not taken, which the model writes as no change (log entry 1). -/
def Obligations.StageRequestsAndReleases : Prop :=
  ∀ (r : StageRequest) (j : Fin 4) (loop : Nat) (s : State), s.lnk.roomFor 2 →
    let first : Option Instr := s.raised.find? fun i => match i with
      | .stageRequest _ | .release _ _ => true
      | _ => false
    (first.any (fun i => decide (i ≠ .stageRequest r)) = true → exec (.stageRequest r) s = .next s)
    ∧ (first.any (fun i => decide (i ≠ .release j loop)) = true → exec (.release j loop) s = .next s)
    ∧ (first.all (fun i => decide (i = .stageRequest r)) = true → ∃ t, exec (.stageRequest r) s = .next t
      ∧ (let e : Staged := { loop := r.loop, action := r.action, lines := r.lines, target := r.target }
         let clear : State := { s with
           raised := s.raised.erase (Instr.stageRequest r), pch := { s.pch with staged := s.pch.staged.set r.ctx none } }
         let placed (u : State) : Prop :=
           if u.pch.lastEdge = some r.target then Transferred r.ctx e u t
           else t = { u with pch := { u.pch with staged := u.pch.staged.set r.ctx (some e) } }
         (s.pch.staged[r.ctx] = none → placed { s with raised := s.raised.erase (Instr.stageRequest r) })
         ∧ ∀ old, s.pch.staged[r.ctx] = some old → ∃ u : State, Transferred r.ctx old clear u ∧ placed u))
    ∧ (first.all (fun i => decide (i = .release j loop)) = true → ∃ t, exec (.release j loop) s = .next t
      ∧ (let out := setOf fun k => decide (s.pch.lines[k].owner = .context j)
         t.apart = { s with
           raised := s.raised.erase (Instr.release j loop),
           pch := { s.pch with lines := t.pch.lines, staged := s.pch.staged.set j none } }.apart
         ∧ (∀ k : Fin 8, t.pch.lines[k] =
             if s.pch.lines[k].owner = .context j then { s.pch.lines[k] with owner := .nobody, isIn := false }
             else s.pch.lines[k])
         ∧ Noticed (if out = 0 then [] else [.punch (.context j) 0 out 0]) s t))

/-- SET_LINES (R130, R131): refused LINE_BUSY where it would change the mode of a line that a context owns, otherwise every
line takes its mode and polarity, and a line in by manual control that becomes CUE goes out. -/
def Obligations.SetLinesSetsModesAndPolarities : Prop :=
  ∀ (manual activeLow : LineSet) (s : State), s.lnk.roomFor 1 →
    ∃ t, exec (.setLines manual activeLow) s = .next t
      ∧ (let i : Instr := .setLines manual activeLow
         let mode (k : Fin 8) : LineMode := if inSet k manual then .manual else .cue
         let leaves (k : Fin 8) : Bool := decide (s.pch.lines[k].owner = .manual ∧ mode k = .cue)
         let out := setOf leaves
         if ∃ (k : Fin 8) (j : Fin 4), s.pch.lines[k].owner = .context j ∧ s.pch.lines[k].mode ≠ mode k then
           Refused i .lineBusy s t
         else
           t.apart = { s with pch := { s.pch with lines := t.pch.lines } }.apart
           ∧ (∀ k : Fin 8, t.pch.lines[k] = { mode := mode k, activeLow := inSet k activeLow,
                                              owner := if leaves k then .nobody else s.pch.lines[k].owner,
                                              isIn := s.pch.lines[k].isIn && !leaves k })
           ∧ (∀ k : Fin 8, t.punchOut k = (t.pch.lines[k].isIn != inSet k activeLow))
           ∧ Answered i .done .nothing (if out = 0 then [] else [.punch .manual 0 out 0]) s t)

/-- Manual punching (R139 to R141): the checks of PUNCH_MANUAL in order; while the position as last taken is LOCKED or
FREEWHEEL it stages the entry, otherwise it moves the lines at once; a state event into STOPPED or UNKNOWN transfers a
staged entry. -/
def Obligations.ManualPunchingMovesManualLines : Prop :=
  ∀ (lines : LineSet) (action : Byte) (state : PosState) (dir : Dir) (s : State), s.lnk.roomFor 1 →
    (∃ t, exec (.punchManual lines action) s = .next t
      ∧ (let i : Instr := .punchManual lines action
         let m : ManualEntry := { lines := lines, action := if action = 0 then .punchOut else .punchIn }
         if lines = 0 ∨ 1 < action.toNat then Refused i .badField s t
         else if s.pch.unit = .guarded then Refused i .guarded s t
         else if ∃ k : Fin 8, inSet k lines = true ∧ s.pch.lines[k].mode ≠ .manual then Refused i .notManual s t
         else if s.pch.view = .locked ∨ s.pch.view = .freewheel then
           t.apart = { s with pch := { s.pch with manual := some m } }.apart ∧ Answered i .done .nothing [] s t
         else t.apart = { s with pch := { s.pch with lines := t.pch.lines } }.apart ∧ ManualMoved m s.pch t.pch
           ∧ Answered i .done .nothing [manualNotice m s.pch] s t))
    ∧ ∃ t, exec (.pchStateEvent state dir) s = .next t
      ∧ (let raised := s.raised.erase (Instr.pchStateEvent state dir)
         if state = .locked ∨ state = .freewheel then t = { s with raised := raised, pch := { s.pch with view := state } }
         else (s.pch.manual = none → t = { s with raised := raised, pch := { s.pch with view := state } })
           ∧ ∀ m, s.pch.manual = some m →
             t.apart = { s with
               raised := raised, pch := { s.pch with view := state, lines := t.pch.lines, manual := none } }.apart
             ∧ ManualMoved m s.pch t.pch ∧ Noticed [manualNotice m s.pch] s t)

/-- The guard (R142, R143, R146, R176): a falling edge that the Punch Unit takes puts every line out in MANUAL mode, discards
every entry, makes the unit GUARDED and hands on the guard report; a rising edge does nothing else but make GUARD_RELEASE
possible, which makes the unit NORMAL and is refused while GUARD is low. The line may fall before the unit takes the fall:
STATUS then answers a low level with the unit as it was, and a GUARD_RELEASE taken before the trip is answered DONE. A fall
taken that none has preceded is the fall and its taking in one event (log entry 19). -/
def Obligations.GuardTripsAndReleases : Prop :=
  ∀ s : State, s.lnk.roomFor 1 →
    (exec (.guardTrip .line) s = .next (if s.board.guardHigh then
        { s with board := { s.board with guardHigh := false }, raised := s.raised ++ [Instr.guardTrip .taken] } else s))
    ∧ (∃ t, exec (.guardTrip .taken) s = .next t
      ∧ t.apart = { s with
          board := { s.board with guardHigh := s.board.guardHigh && decide (Instr.guardTrip .taken ∈ s.raised) },
          raised := s.raised.erase (Instr.guardTrip .taken) ++ [Instr.guardReport],
          pch := { s.pch with lines := t.pch.lines, staged := t.pch.staged, manual := none, unit := .guarded } }.apart
      ∧ (∀ k : Fin 8, t.pch.lines[k] = { mode := .manual, activeLow := s.pch.lines[k].activeLow, owner := .nobody,
                                         isIn := false })
      ∧ (∀ j : Fin 4, t.pch.staged[j] = none)
      ∧ Noticed [.guardTripped (setOf fun k => s.pch.lines[k].isIn)] s t)
    ∧ exec .guardRise s = .next { s with board := { s.board with guardHigh := true } }
    ∧ ∃ t, exec .guardRelease s = .next t
      ∧ if s.board.guardHigh ∨ Instr.guardTrip .taken ∈ s.raised then
          t.apart = { s with pch := { s.pch with unit := .normal } }.apart ∧ Answered .guardRelease .done .nothing [] s t
        else Refused .guardRelease .guardActive s t

/-! ## The Voice Gate -/

/-- The Voice Gate (R158, R159, R161): an edge on VOICE sets the level and nothing else; a forward tick counts by the table of
R159 and a run that reaches the qualify length hands on one onset report; a reverse tick and a state event into STOPPED or
UNKNOWN end the run. -/
def Obligations.VoiceRunsAreCountedOnTicks : Prop :=
  ∀ (tick : Nat) (rising : Bool) (state : PosState) (dir : Dir) (s : State),
    exec (.voiceEdge rising) s = .next { s with vgt := { s.vgt with level := rising } }
    ∧ (let v := s.vgt
       let raised := s.raised.erase (Instr.vgtTick tick .forward)
       let consecutive : Bool := match v.last with
         | some (p, .forward) => decide (tick = if p + 1 < s.pos.rate.fDay * 80 then p + 1 else 0)
         | some (_, .reverse) => false
         | none => false
       let last : Option (Nat × Dir) := some (tick, .forward)
       let fresh : Vgt := { v with run := if v.qualify ≤ 1 then .qualified else .counting, start := some tick, count := 1, last := last }
       (v.level = false → exec (.vgtTick tick .forward) s
           = .next { s with raised := raised, vgt := { v with run := .idle, start := none, count := 0, last := last } })
       ∧ (v.level = true → v.run = .idle ∨ consecutive = false → exec (.vgtTick tick .forward) s
           = .next { s with
               raised := raised ++ (if v.qualify ≤ 1 then [Instr.onsetReport tick tick v.allowance] else []), vgt := fresh })
       ∧ (v.level = true → v.run = .counting → consecutive = true → ∀ onset, v.start = some onset →
           exec (.vgtTick tick .forward) s = .next (
             if v.qualify ≤ v.count + 1 then
               { s with
                 raised := raised ++ [Instr.onsetReport onset tick v.allowance],
                 vgt := { v with run := .qualified, count := v.count + 1, last := last } }
             else { s with raised := raised, vgt := { v with count := v.count + 1, last := last } }))
       ∧ (v.level = true → v.run = .qualified → consecutive = true →
           exec (.vgtTick tick .forward) s = .next { s with raised := raised, vgt := { v with last := last } }))
    ∧ exec (.vgtTick tick .reverse) s = .next { s with
        raised := s.raised.erase (Instr.vgtTick tick .reverse),
        vgt := { s.vgt with run := .idle, start := none, count := 0, last := some (tick, .reverse) } }
    ∧ exec (.vgtStateEvent state dir) s = .next { s with
        raised := s.raised.erase (Instr.vgtStateEvent state dir),
        vgt := if state = .stopped ∨ state = .unknown then
            { s.vgt with run := .idle, start := none, count := 0, last := none }
          else s.vgt }

/-- An onset report (R160, R161): each OPEN take without an offset whose capture window holds the qualifying tick receives the
voice offset, and nothing else changes; an offset lies from −A × 80 to (U − I) × 80 − 1. -/
def Obligations.OnsetsReachOpenTakes : Prop :=
  ∀ (onset qualifying allowance : Nat) (s : State), s.PassesLawful →
    ∃ t, exec (.onsetReport onset qualifying allowance) s = .next t
      ∧ t = { s with
          cst := { s.cst with reels := t.cst.reels },
          raised := s.raised.erase (Instr.onsetReport onset qualifying allowance) }
      ∧ (∀ r : Fin 8, { t.reel r with cues := [] } = { s.reel r with cues := [] })
      ∧ (∀ (r : Fin 8) (slot : Nat), (∀ k c, s.ctx k = some c → ¬ (c.reel = r ∧ c.slot = slot)) →
          t.cue r slot = s.cue r slot)
      ∧ ∀ (k : Fin 4) (c : Ctx) (cue : Cue), s.ctx k = some c → s.cue c.reel c.slot = some cue →
          (let i : Int := cue.vals.inPt
           let w : Int := if i < allowance then 0 else (i - allowance) * 80
           let inWindow : Bool := decide (w ≤ qualifying ∧ (qualifying : Int) ≤ cue.vals.outPt * 80 - 1)
           let offset : Int := (if (onset : Int) < w ∨ qualifying < onset then w else onset) - i * 80
           t.cue c.reel c.slot = some { cue with
             takes := cue.takes.map fun x =>
               if c.take = some x.number ∧ x.result = .opened ∧ x.offset = none ∧ inWindow then
                 { x with offset := some offset }
               else x }
           ∧ (inWindow = true → -(allowance * 80 : Int) ≤ offset ∧ offset ≤ ((cue.vals.outPt : Int) - i) * 80 - 1))

/-! ## Laws that every step keeps -/

/-- The law of the Command Link (R166, R169, R171, R173): at most 24 notices and three answers of the link's own wait, and one
place, empty until its owner has taken it, belongs to the held command. Every step keeps it. -/
def Obligations.EveryStepKeepsTheLinkLaw : Prop :=
  ∀ s t : State, step s = .next t → s.lnk.lawful = true → t.lnk.lawful = true

/-- The laws of the position (R70, Table 4-4, R80), of the punch lines and the guard (R129, R142) and of the tone generator
(R111, R115, R116). Every step keeps each of them. -/
def Obligations.EveryStepKeepsTheBlockLaws : Prop :=
  ∀ s t : State, step s = .next t →
    (s.pos.lawful = true → t.pos.lawful = true) ∧ (s.pch.lawful = true → t.pch.lawful = true)
      ∧ (s.ciu.lawful = true → t.ciu.lawful = true)

/-- The laws of the Cue Store and of the passes, each kept by every step: the slots, lists and takes of the reels (R1, R9,
R149); the pass contexts (R83: at most four are ACTIVE, each serves a distinct PASSING cue of the play reel, and every
PASSING cue is served); the pending play reel, present only while a context is ACTIVE (R7, R8); the next-cue pointer, within
the order list unless the re-find mark is set (R86); the entry and close frames of a pass, those that its cue gives (R84,
R85, R94); the reels together (R2, R4, R9, R12 to R14, R19, R57: sorted lists, distinct loop numbers, records in their
ranges, header points, conforms); the count-in values held, of at most four beeps (R13, log entry 8); and the OPEN takes
(R151), where frame edges meet the passes in flight as edges of rising frames do. -/
def Obligations.EveryStepKeepsTheStoreAndPassLaws : Prop :=
  ∀ s t : State, step s = .next t → s.cst.lawful = true →
    t.cst.lawful = true ∧ (s.PassesLawful → t.PassesLawful) ∧ (s.PendingKept → t.PendingKept) ∧ (s.ReelsKept → t.ReelsKept)
      ∧ (s.PointerKept → t.PointerKept) ∧ (s.PassesLawful → s.ReelsKept → s.FramesKept → t.FramesKept)
      ∧ (s.ReelsKept → s.BeepsKept → t.BeepsKept)
      ∧ (s.PassesLawful → (∀ e, s.pending.head? = some (.pscFrameEdge e) → runningEdge e = true → s.MetInOrder e.n) →
          s.TakesKept → t.TakesKept)

/-- The laws hold right after power-on. -/
def Obligations.LawsHoldAtReset : Prop :=
  State.reset.lnk.lawful = true ∧ State.reset.pos.lawful = true ∧ State.reset.pch.lawful = true
    ∧ State.reset.ciu.lawful = true ∧ State.reset.cst.lawful = true ∧ State.reset.PassesLawful
    ∧ State.reset.PendingKept ∧ State.reset.PointerKept ∧ State.reset.FramesKept ∧ State.reset.BeepsKept
    ∧ State.reset.ReelsKept ∧ State.reset.TakesKept
    ∧ Sys2Proof.core.reset = State.reset
end

