-- ==== Sys2Proof/Laws/State.lean ====
section
/-! SUPPORT. One lemma for each field of the state under each named update: the fields an update leaves alone, so that no
proof about a meaning unfolds a record update. -/

namespace Sys2Proof.Machine

/-! ## transmit -/

@[simp] theorem State.transmit_pending (s : State) : (s.transmit).pending = s.pending := by
  unfold State.transmit; split <;> rfl
@[simp] theorem State.transmit_pos (s : State) : (s.transmit).pos = s.pos := by
  unfold State.transmit; split <;> rfl
@[simp] theorem State.transmit_cst (s : State) : (s.transmit).cst = s.cst := by
  unfold State.transmit; split <;> rfl
@[simp] theorem State.transmit_cfu (s : State) : (s.transmit).cfu = s.cfu := by
  unfold State.transmit; split <;> rfl
@[simp] theorem State.transmit_psc (s : State) : (s.transmit).psc = s.psc := by
  unfold State.transmit; split <;> rfl
@[simp] theorem State.transmit_ciu (s : State) : (s.transmit).ciu = s.ciu := by
  unfold State.transmit; split <;> rfl
@[simp] theorem State.transmit_ovl (s : State) : (s.transmit).ovl = s.ovl := by
  unfold State.transmit; split <;> rfl
@[simp] theorem State.transmit_pch (s : State) : (s.transmit).pch = s.pch := by
  unfold State.transmit; split <;> rfl
@[simp] theorem State.transmit_vgt (s : State) : (s.transmit).vgt = s.vgt := by
  unfold State.transmit; split <;> rfl
@[simp] theorem State.transmit_board (s : State) : (s.transmit).board = s.board := by
  unfold State.transmit; split <;> rfl
@[simp] theorem State.transmit_raised (s : State) : (s.transmit).raised = s.raised := by
  unfold State.transmit; split <;> rfl
@[simp] theorem State.transmit_lastAnswer (s : State) : (s.transmit).lastAnswer = s.lastAnswer := by
  unfold State.transmit; split <;> rfl
@[simp] theorem State.transmit_ties (s : State) : (s.transmit).ties = s.ties := by
  unfold State.transmit; split <;> rfl

/-! ## raise -/

@[simp] theorem State.raise_pending (n : Notice) (s : State) : (s.raise n).pending = s.pending := by
  simp [State.raise]
@[simp] theorem State.raise_pos (n : Notice) (s : State) : (s.raise n).pos = s.pos := by
  simp [State.raise]
@[simp] theorem State.raise_cst (n : Notice) (s : State) : (s.raise n).cst = s.cst := by
  simp [State.raise]
@[simp] theorem State.raise_cfu (n : Notice) (s : State) : (s.raise n).cfu = s.cfu := by
  simp [State.raise]
@[simp] theorem State.raise_psc (n : Notice) (s : State) : (s.raise n).psc = s.psc := by
  simp [State.raise]
@[simp] theorem State.raise_ciu (n : Notice) (s : State) : (s.raise n).ciu = s.ciu := by
  simp [State.raise]
@[simp] theorem State.raise_ovl (n : Notice) (s : State) : (s.raise n).ovl = s.ovl := by
  simp [State.raise]
@[simp] theorem State.raise_pch (n : Notice) (s : State) : (s.raise n).pch = s.pch := by
  simp [State.raise]
@[simp] theorem State.raise_vgt (n : Notice) (s : State) : (s.raise n).vgt = s.vgt := by
  simp [State.raise]
@[simp] theorem State.raise_board (n : Notice) (s : State) : (s.raise n).board = s.board := by
  simp [State.raise]
@[simp] theorem State.raise_raised (n : Notice) (s : State) : (s.raise n).raised = s.raised := by
  simp [State.raise]
@[simp] theorem State.raise_lastAnswer (n : Notice) (s : State) : (s.raise n).lastAnswer = s.lastAnswer := by
  simp [State.raise]
@[simp] theorem State.raise_ties (n : Notice) (s : State) : (s.raise n).ties = s.ties := by
  simp [State.raise]

/-! ## post -/

@[simp] theorem State.post_pending (es : List Instr) (s : State) : (s.post es).pending = s.pending := rfl
@[simp] theorem State.post_lnk (es : List Instr) (s : State) : (s.post es).lnk = s.lnk := rfl
@[simp] theorem State.post_pos (es : List Instr) (s : State) : (s.post es).pos = s.pos := rfl
@[simp] theorem State.post_cst (es : List Instr) (s : State) : (s.post es).cst = s.cst := rfl
@[simp] theorem State.post_cfu (es : List Instr) (s : State) : (s.post es).cfu = s.cfu := rfl
@[simp] theorem State.post_psc (es : List Instr) (s : State) : (s.post es).psc = s.psc := rfl
@[simp] theorem State.post_ciu (es : List Instr) (s : State) : (s.post es).ciu = s.ciu := rfl
@[simp] theorem State.post_ovl (es : List Instr) (s : State) : (s.post es).ovl = s.ovl := rfl
@[simp] theorem State.post_pch (es : List Instr) (s : State) : (s.post es).pch = s.pch := rfl
@[simp] theorem State.post_vgt (es : List Instr) (s : State) : (s.post es).vgt = s.vgt := rfl
@[simp] theorem State.post_board (es : List Instr) (s : State) : (s.post es).board = s.board := rfl
@[simp] theorem State.post_lastAnswer (es : List Instr) (s : State) : (s.post es).lastAnswer = s.lastAnswer := rfl
@[simp] theorem State.post_ties (es : List Instr) (s : State) : (s.post es).ties = s.ties := rfl

/-! ## taken -/

@[simp] theorem State.taken_pending (i : Instr) (s : State) : (s.taken i).pending = s.pending := rfl
@[simp] theorem State.taken_lnk (i : Instr) (s : State) : (s.taken i).lnk = s.lnk := rfl
@[simp] theorem State.taken_pos (i : Instr) (s : State) : (s.taken i).pos = s.pos := rfl
@[simp] theorem State.taken_cst (i : Instr) (s : State) : (s.taken i).cst = s.cst := rfl
@[simp] theorem State.taken_cfu (i : Instr) (s : State) : (s.taken i).cfu = s.cfu := rfl
@[simp] theorem State.taken_psc (i : Instr) (s : State) : (s.taken i).psc = s.psc := rfl
@[simp] theorem State.taken_ciu (i : Instr) (s : State) : (s.taken i).ciu = s.ciu := rfl
@[simp] theorem State.taken_ovl (i : Instr) (s : State) : (s.taken i).ovl = s.ovl := rfl
@[simp] theorem State.taken_pch (i : Instr) (s : State) : (s.taken i).pch = s.pch := rfl
@[simp] theorem State.taken_vgt (i : Instr) (s : State) : (s.taken i).vgt = s.vgt := rfl
@[simp] theorem State.taken_board (i : Instr) (s : State) : (s.taken i).board = s.board := rfl
@[simp] theorem State.taken_lastAnswer (i : Instr) (s : State) : (s.taken i).lastAnswer = s.lastAnswer := rfl
@[simp] theorem State.taken_ties (i : Instr) (s : State) : (s.taken i).ties = s.ties := rfl

/-! ## modReel -/

@[simp] theorem State.modReel_pending (r : Fin 8) (f : Reel → Reel) (s : State) : (s.modReel r f).pending = s.pending := rfl
@[simp] theorem State.modReel_lnk (r : Fin 8) (f : Reel → Reel) (s : State) : (s.modReel r f).lnk = s.lnk := rfl
@[simp] theorem State.modReel_pos (r : Fin 8) (f : Reel → Reel) (s : State) : (s.modReel r f).pos = s.pos := rfl
@[simp] theorem State.modReel_cfu (r : Fin 8) (f : Reel → Reel) (s : State) : (s.modReel r f).cfu = s.cfu := rfl
@[simp] theorem State.modReel_psc (r : Fin 8) (f : Reel → Reel) (s : State) : (s.modReel r f).psc = s.psc := rfl
@[simp] theorem State.modReel_ciu (r : Fin 8) (f : Reel → Reel) (s : State) : (s.modReel r f).ciu = s.ciu := rfl
@[simp] theorem State.modReel_ovl (r : Fin 8) (f : Reel → Reel) (s : State) : (s.modReel r f).ovl = s.ovl := rfl
@[simp] theorem State.modReel_pch (r : Fin 8) (f : Reel → Reel) (s : State) : (s.modReel r f).pch = s.pch := rfl
@[simp] theorem State.modReel_vgt (r : Fin 8) (f : Reel → Reel) (s : State) : (s.modReel r f).vgt = s.vgt := rfl
@[simp] theorem State.modReel_board (r : Fin 8) (f : Reel → Reel) (s : State) : (s.modReel r f).board = s.board := rfl
@[simp] theorem State.modReel_raised (r : Fin 8) (f : Reel → Reel) (s : State) : (s.modReel r f).raised = s.raised := rfl
@[simp] theorem State.modReel_lastAnswer (r : Fin 8) (f : Reel → Reel) (s : State) : (s.modReel r f).lastAnswer = s.lastAnswer := rfl
@[simp] theorem State.modReel_ties (r : Fin 8) (f : Reel → Reel) (s : State) : (s.modReel r f).ties = s.ties := rfl

/-! ## modCue -/

@[simp] theorem State.modCue_pending (r : Fin 8) (slot : Nat) (f : Cue → Cue) (s : State) : (s.modCue r slot f).pending = s.pending := rfl
@[simp] theorem State.modCue_lnk (r : Fin 8) (slot : Nat) (f : Cue → Cue) (s : State) : (s.modCue r slot f).lnk = s.lnk := rfl
@[simp] theorem State.modCue_pos (r : Fin 8) (slot : Nat) (f : Cue → Cue) (s : State) : (s.modCue r slot f).pos = s.pos := rfl
@[simp] theorem State.modCue_cfu (r : Fin 8) (slot : Nat) (f : Cue → Cue) (s : State) : (s.modCue r slot f).cfu = s.cfu := rfl
@[simp] theorem State.modCue_psc (r : Fin 8) (slot : Nat) (f : Cue → Cue) (s : State) : (s.modCue r slot f).psc = s.psc := rfl
@[simp] theorem State.modCue_ciu (r : Fin 8) (slot : Nat) (f : Cue → Cue) (s : State) : (s.modCue r slot f).ciu = s.ciu := rfl
@[simp] theorem State.modCue_ovl (r : Fin 8) (slot : Nat) (f : Cue → Cue) (s : State) : (s.modCue r slot f).ovl = s.ovl := rfl
@[simp] theorem State.modCue_pch (r : Fin 8) (slot : Nat) (f : Cue → Cue) (s : State) : (s.modCue r slot f).pch = s.pch := rfl
@[simp] theorem State.modCue_vgt (r : Fin 8) (slot : Nat) (f : Cue → Cue) (s : State) : (s.modCue r slot f).vgt = s.vgt := rfl
@[simp] theorem State.modCue_board (r : Fin 8) (slot : Nat) (f : Cue → Cue) (s : State) : (s.modCue r slot f).board = s.board := rfl
@[simp] theorem State.modCue_raised (r : Fin 8) (slot : Nat) (f : Cue → Cue) (s : State) : (s.modCue r slot f).raised = s.raised := rfl
@[simp] theorem State.modCue_lastAnswer (r : Fin 8) (slot : Nat) (f : Cue → Cue) (s : State) : (s.modCue r slot f).lastAnswer = s.lastAnswer := rfl
@[simp] theorem State.modCue_ties (r : Fin 8) (slot : Nat) (f : Cue → Cue) (s : State) : (s.modCue r slot f).ties = s.ties := rfl

/-! ## markIfPlay -/

@[simp] theorem State.markIfPlay_pending (r : Fin 8) (s : State) : (s.markIfPlay r).pending = s.pending := by
  unfold State.markIfPlay; split <;> rfl
@[simp] theorem State.markIfPlay_lnk (r : Fin 8) (s : State) : (s.markIfPlay r).lnk = s.lnk := by
  unfold State.markIfPlay; split <;> rfl
@[simp] theorem State.markIfPlay_pos (r : Fin 8) (s : State) : (s.markIfPlay r).pos = s.pos := by
  unfold State.markIfPlay; split <;> rfl
@[simp] theorem State.markIfPlay_cst (r : Fin 8) (s : State) : (s.markIfPlay r).cst = s.cst := by
  unfold State.markIfPlay; split <;> rfl
@[simp] theorem State.markIfPlay_cfu (r : Fin 8) (s : State) : (s.markIfPlay r).cfu = s.cfu := by
  unfold State.markIfPlay; split <;> rfl
@[simp] theorem State.markIfPlay_ciu (r : Fin 8) (s : State) : (s.markIfPlay r).ciu = s.ciu := by
  unfold State.markIfPlay; split <;> rfl
@[simp] theorem State.markIfPlay_ovl (r : Fin 8) (s : State) : (s.markIfPlay r).ovl = s.ovl := by
  unfold State.markIfPlay; split <;> rfl
@[simp] theorem State.markIfPlay_pch (r : Fin 8) (s : State) : (s.markIfPlay r).pch = s.pch := by
  unfold State.markIfPlay; split <;> rfl
@[simp] theorem State.markIfPlay_vgt (r : Fin 8) (s : State) : (s.markIfPlay r).vgt = s.vgt := by
  unfold State.markIfPlay; split <;> rfl
@[simp] theorem State.markIfPlay_board (r : Fin 8) (s : State) : (s.markIfPlay r).board = s.board := by
  unfold State.markIfPlay; split <;> rfl
@[simp] theorem State.markIfPlay_raised (r : Fin 8) (s : State) : (s.markIfPlay r).raised = s.raised := by
  unfold State.markIfPlay; split <;> rfl
@[simp] theorem State.markIfPlay_lastAnswer (r : Fin 8) (s : State) : (s.markIfPlay r).lastAnswer = s.lastAnswer := by
  unfold State.markIfPlay; split <;> rfl
@[simp] theorem State.markIfPlay_ties (r : Fin 8) (s : State) : (s.markIfPlay r).ties = s.ties := by
  unfold State.markIfPlay; split <;> rfl

/-! ## applyVals -/

@[simp] theorem State.applyVals_pending (r : Fin 8) (slot : Nat) (c : Cue) (v : CueVals) (s : State) : (s.applyVals r slot c v).pending = s.pending := by
  unfold State.applyVals; dsimp only; split <;> simp
@[simp] theorem State.applyVals_lnk (r : Fin 8) (slot : Nat) (c : Cue) (v : CueVals) (s : State) : (s.applyVals r slot c v).lnk = s.lnk := by
  unfold State.applyVals; dsimp only; split <;> simp
@[simp] theorem State.applyVals_pos (r : Fin 8) (slot : Nat) (c : Cue) (v : CueVals) (s : State) : (s.applyVals r slot c v).pos = s.pos := by
  unfold State.applyVals; dsimp only; split <;> simp
@[simp] theorem State.applyVals_cfu (r : Fin 8) (slot : Nat) (c : Cue) (v : CueVals) (s : State) : (s.applyVals r slot c v).cfu = s.cfu := by
  unfold State.applyVals; dsimp only; split <;> simp
@[simp] theorem State.applyVals_ciu (r : Fin 8) (slot : Nat) (c : Cue) (v : CueVals) (s : State) : (s.applyVals r slot c v).ciu = s.ciu := by
  unfold State.applyVals; dsimp only; split <;> simp
@[simp] theorem State.applyVals_ovl (r : Fin 8) (slot : Nat) (c : Cue) (v : CueVals) (s : State) : (s.applyVals r slot c v).ovl = s.ovl := by
  unfold State.applyVals; dsimp only; split <;> simp
@[simp] theorem State.applyVals_pch (r : Fin 8) (slot : Nat) (c : Cue) (v : CueVals) (s : State) : (s.applyVals r slot c v).pch = s.pch := by
  unfold State.applyVals; dsimp only; split <;> simp
@[simp] theorem State.applyVals_vgt (r : Fin 8) (slot : Nat) (c : Cue) (v : CueVals) (s : State) : (s.applyVals r slot c v).vgt = s.vgt := by
  unfold State.applyVals; dsimp only; split <;> simp
@[simp] theorem State.applyVals_board (r : Fin 8) (slot : Nat) (c : Cue) (v : CueVals) (s : State) : (s.applyVals r slot c v).board = s.board := by
  unfold State.applyVals; dsimp only; split <;> simp
@[simp] theorem State.applyVals_raised (r : Fin 8) (slot : Nat) (c : Cue) (v : CueVals) (s : State) : (s.applyVals r slot c v).raised = s.raised := by
  unfold State.applyVals; dsimp only; split <;> simp
@[simp] theorem State.applyVals_lastAnswer (r : Fin 8) (slot : Nat) (c : Cue) (v : CueVals) (s : State) : (s.applyVals r slot c v).lastAnswer = s.lastAnswer := by
  unfold State.applyVals; dsimp only; split <;> simp
@[simp] theorem State.applyVals_ties (r : Fin 8) (slot : Nat) (c : Cue) (v : CueVals) (s : State) : (s.applyVals r slot c v).ties = s.ties := by
  unfold State.applyVals; dsimp only; split <;> simp

/-! ## setCtx -/

@[simp] theorem State.setCtx_pending (k : Fin 4) (c : Option Ctx) (s : State) : (s.setCtx k c).pending = s.pending := rfl
@[simp] theorem State.setCtx_lnk (k : Fin 4) (c : Option Ctx) (s : State) : (s.setCtx k c).lnk = s.lnk := rfl
@[simp] theorem State.setCtx_pos (k : Fin 4) (c : Option Ctx) (s : State) : (s.setCtx k c).pos = s.pos := rfl
@[simp] theorem State.setCtx_cst (k : Fin 4) (c : Option Ctx) (s : State) : (s.setCtx k c).cst = s.cst := rfl
@[simp] theorem State.setCtx_cfu (k : Fin 4) (c : Option Ctx) (s : State) : (s.setCtx k c).cfu = s.cfu := rfl
@[simp] theorem State.setCtx_ciu (k : Fin 4) (c : Option Ctx) (s : State) : (s.setCtx k c).ciu = s.ciu := rfl
@[simp] theorem State.setCtx_ovl (k : Fin 4) (c : Option Ctx) (s : State) : (s.setCtx k c).ovl = s.ovl := rfl
@[simp] theorem State.setCtx_pch (k : Fin 4) (c : Option Ctx) (s : State) : (s.setCtx k c).pch = s.pch := rfl
@[simp] theorem State.setCtx_vgt (k : Fin 4) (c : Option Ctx) (s : State) : (s.setCtx k c).vgt = s.vgt := rfl
@[simp] theorem State.setCtx_board (k : Fin 4) (c : Option Ctx) (s : State) : (s.setCtx k c).board = s.board := rfl
@[simp] theorem State.setCtx_raised (k : Fin 4) (c : Option Ctx) (s : State) : (s.setCtx k c).raised = s.raised := rfl
@[simp] theorem State.setCtx_lastAnswer (k : Fin 4) (c : Option Ctx) (s : State) : (s.setCtx k c).lastAnswer = s.lastAnswer := rfl
@[simp] theorem State.setCtx_ties (k : Fin 4) (c : Option Ctx) (s : State) : (s.setCtx k c).ties = s.ties := rfl

/-! ## setPointer -/

@[simp] theorem State.setPointer_pending (p : Option Nat) (s : State) : (s.setPointer p).pending = s.pending := rfl
@[simp] theorem State.setPointer_lnk (p : Option Nat) (s : State) : (s.setPointer p).lnk = s.lnk := rfl
@[simp] theorem State.setPointer_pos (p : Option Nat) (s : State) : (s.setPointer p).pos = s.pos := rfl
@[simp] theorem State.setPointer_cst (p : Option Nat) (s : State) : (s.setPointer p).cst = s.cst := rfl
@[simp] theorem State.setPointer_cfu (p : Option Nat) (s : State) : (s.setPointer p).cfu = s.cfu := rfl
@[simp] theorem State.setPointer_ciu (p : Option Nat) (s : State) : (s.setPointer p).ciu = s.ciu := rfl
@[simp] theorem State.setPointer_ovl (p : Option Nat) (s : State) : (s.setPointer p).ovl = s.ovl := rfl
@[simp] theorem State.setPointer_pch (p : Option Nat) (s : State) : (s.setPointer p).pch = s.pch := rfl
@[simp] theorem State.setPointer_vgt (p : Option Nat) (s : State) : (s.setPointer p).vgt = s.vgt := rfl
@[simp] theorem State.setPointer_board (p : Option Nat) (s : State) : (s.setPointer p).board = s.board := rfl
@[simp] theorem State.setPointer_raised (p : Option Nat) (s : State) : (s.setPointer p).raised = s.raised := rfl
@[simp] theorem State.setPointer_lastAnswer (p : Option Nat) (s : State) : (s.setPointer p).lastAnswer = s.lastAnswer := rfl
@[simp] theorem State.setPointer_ties (p : Option Nat) (s : State) : (s.setPointer p).ties = s.ties := rfl

/-! ## setStaged -/

@[simp] theorem State.setStaged_pending (j : Fin 4) (e : Option Staged) (s : State) : (s.setStaged j e).pending = s.pending := rfl
@[simp] theorem State.setStaged_lnk (j : Fin 4) (e : Option Staged) (s : State) : (s.setStaged j e).lnk = s.lnk := rfl
@[simp] theorem State.setStaged_pos (j : Fin 4) (e : Option Staged) (s : State) : (s.setStaged j e).pos = s.pos := rfl
@[simp] theorem State.setStaged_cst (j : Fin 4) (e : Option Staged) (s : State) : (s.setStaged j e).cst = s.cst := rfl
@[simp] theorem State.setStaged_cfu (j : Fin 4) (e : Option Staged) (s : State) : (s.setStaged j e).cfu = s.cfu := rfl
@[simp] theorem State.setStaged_psc (j : Fin 4) (e : Option Staged) (s : State) : (s.setStaged j e).psc = s.psc := rfl
@[simp] theorem State.setStaged_ciu (j : Fin 4) (e : Option Staged) (s : State) : (s.setStaged j e).ciu = s.ciu := rfl
@[simp] theorem State.setStaged_ovl (j : Fin 4) (e : Option Staged) (s : State) : (s.setStaged j e).ovl = s.ovl := rfl
@[simp] theorem State.setStaged_vgt (j : Fin 4) (e : Option Staged) (s : State) : (s.setStaged j e).vgt = s.vgt := rfl
@[simp] theorem State.setStaged_board (j : Fin 4) (e : Option Staged) (s : State) : (s.setStaged j e).board = s.board := rfl
@[simp] theorem State.setStaged_raised (j : Fin 4) (e : Option Staged) (s : State) : (s.setStaged j e).raised = s.raised := rfl
@[simp] theorem State.setStaged_lastAnswer (j : Fin 4) (e : Option Staged) (s : State) : (s.setStaged j e).lastAnswer = s.lastAnswer := rfl
@[simp] theorem State.setStaged_ties (j : Fin 4) (e : Option Staged) (s : State) : (s.setStaged j e).ties = s.ties := rfl

/-! ## setRx -/

@[simp] theorem State.setRx_pending (rx : Rx) (s : State) : (s.setRx rx).pending = s.pending := rfl
@[simp] theorem State.setRx_pos (rx : Rx) (s : State) : (s.setRx rx).pos = s.pos := rfl
@[simp] theorem State.setRx_cst (rx : Rx) (s : State) : (s.setRx rx).cst = s.cst := rfl
@[simp] theorem State.setRx_cfu (rx : Rx) (s : State) : (s.setRx rx).cfu = s.cfu := rfl
@[simp] theorem State.setRx_psc (rx : Rx) (s : State) : (s.setRx rx).psc = s.psc := rfl
@[simp] theorem State.setRx_ciu (rx : Rx) (s : State) : (s.setRx rx).ciu = s.ciu := rfl
@[simp] theorem State.setRx_ovl (rx : Rx) (s : State) : (s.setRx rx).ovl = s.ovl := rfl
@[simp] theorem State.setRx_pch (rx : Rx) (s : State) : (s.setRx rx).pch = s.pch := rfl
@[simp] theorem State.setRx_vgt (rx : Rx) (s : State) : (s.setRx rx).vgt = s.vgt := rfl
@[simp] theorem State.setRx_board (rx : Rx) (s : State) : (s.setRx rx).board = s.board := rfl
@[simp] theorem State.setRx_raised (rx : Rx) (s : State) : (s.setRx rx).raised = s.raised := rfl
@[simp] theorem State.setRx_lastAnswer (rx : Rx) (s : State) : (s.setRx rx).lastAnswer = s.lastAnswer := rfl
@[simp] theorem State.setRx_ties (rx : Rx) (s : State) : (s.setRx rx).ties = s.ties := rfl

/-! ## settleTie -/

@[simp] theorem State.settleTie_pending (w : Bool) (s : State) : (s.settleTie w).pending = s.pending := by
  unfold State.settleTie; split <;> (try split) <;> rfl
@[simp] theorem State.settleTie_pos (w : Bool) (s : State) : (s.settleTie w).pos = s.pos := by
  unfold State.settleTie; split <;> (try split) <;> rfl
@[simp] theorem State.settleTie_cst (w : Bool) (s : State) : (s.settleTie w).cst = s.cst := by
  unfold State.settleTie; split <;> (try split) <;> rfl
@[simp] theorem State.settleTie_cfu (w : Bool) (s : State) : (s.settleTie w).cfu = s.cfu := by
  unfold State.settleTie; split <;> (try split) <;> rfl
@[simp] theorem State.settleTie_psc (w : Bool) (s : State) : (s.settleTie w).psc = s.psc := by
  unfold State.settleTie; split <;> (try split) <;> rfl
@[simp] theorem State.settleTie_ciu (w : Bool) (s : State) : (s.settleTie w).ciu = s.ciu := by
  unfold State.settleTie; split <;> (try split) <;> rfl
@[simp] theorem State.settleTie_ovl (w : Bool) (s : State) : (s.settleTie w).ovl = s.ovl := by
  unfold State.settleTie; split <;> (try split) <;> rfl
@[simp] theorem State.settleTie_pch (w : Bool) (s : State) : (s.settleTie w).pch = s.pch := by
  unfold State.settleTie; split <;> (try split) <;> rfl
@[simp] theorem State.settleTie_vgt (w : Bool) (s : State) : (s.settleTie w).vgt = s.vgt := by
  unfold State.settleTie; split <;> (try split) <;> rfl
@[simp] theorem State.settleTie_board (w : Bool) (s : State) : (s.settleTie w).board = s.board := by
  unfold State.settleTie; split <;> (try split) <;> rfl
@[simp] theorem State.settleTie_raised (w : Bool) (s : State) : (s.settleTie w).raised = s.raised := by
  unfold State.settleTie; split <;> (try split) <;> rfl
@[simp] theorem State.settleTie_lastAnswer (w : Bool) (s : State) : (s.settleTie w).lastAnswer = s.lastAnswer := by
  unfold State.settleTie; split <;> (try split) <;> rfl

/-! ## deliver -/

@[simp] theorem State.deliver_pending (i : Instr) (a : Answer) (s t : State) : (s.deliver i a t).pending = t.pending := by
  unfold State.deliver; dsimp only; split <;> simp
@[simp] theorem State.deliver_pos (i : Instr) (a : Answer) (s t : State) : (s.deliver i a t).pos = t.pos := by
  unfold State.deliver; dsimp only; split <;> simp
@[simp] theorem State.deliver_cst (i : Instr) (a : Answer) (s t : State) : (s.deliver i a t).cst = t.cst := by
  unfold State.deliver; dsimp only; split <;> simp
@[simp] theorem State.deliver_cfu (i : Instr) (a : Answer) (s t : State) : (s.deliver i a t).cfu = t.cfu := by
  unfold State.deliver; dsimp only; split <;> simp
@[simp] theorem State.deliver_psc (i : Instr) (a : Answer) (s t : State) : (s.deliver i a t).psc = t.psc := by
  unfold State.deliver; dsimp only; split <;> simp
@[simp] theorem State.deliver_ciu (i : Instr) (a : Answer) (s t : State) : (s.deliver i a t).ciu = t.ciu := by
  unfold State.deliver; dsimp only; split <;> simp
@[simp] theorem State.deliver_ovl (i : Instr) (a : Answer) (s t : State) : (s.deliver i a t).ovl = t.ovl := by
  unfold State.deliver; dsimp only; split <;> simp
@[simp] theorem State.deliver_pch (i : Instr) (a : Answer) (s t : State) : (s.deliver i a t).pch = t.pch := by
  unfold State.deliver; dsimp only; split <;> simp
@[simp] theorem State.deliver_vgt (i : Instr) (a : Answer) (s t : State) : (s.deliver i a t).vgt = t.vgt := by
  unfold State.deliver; dsimp only; split <;> simp
@[simp] theorem State.deliver_board (i : Instr) (a : Answer) (s t : State) : (s.deliver i a t).board = t.board := by
  unfold State.deliver; dsimp only; split <;> simp
@[simp] theorem State.deliver_raised (i : Instr) (a : Answer) (s t : State) : (s.deliver i a t).raised = t.raised := by
  unfold State.deliver; dsimp only; split <;> simp

/-! ## owner -/

@[simp] theorem State.owner_pending (i : Instr) (f : State → State × Reply) (s : State) : (s.owner i f).pending = (f s).1.pending := by
  simp [State.owner]
@[simp] theorem State.owner_pos (i : Instr) (f : State → State × Reply) (s : State) : (s.owner i f).pos = (f s).1.pos := by
  simp [State.owner]
@[simp] theorem State.owner_cst (i : Instr) (f : State → State × Reply) (s : State) : (s.owner i f).cst = (f s).1.cst := by
  simp [State.owner]
@[simp] theorem State.owner_cfu (i : Instr) (f : State → State × Reply) (s : State) : (s.owner i f).cfu = (f s).1.cfu := by
  simp [State.owner]
@[simp] theorem State.owner_psc (i : Instr) (f : State → State × Reply) (s : State) : (s.owner i f).psc = (f s).1.psc := by
  simp [State.owner]
@[simp] theorem State.owner_ciu (i : Instr) (f : State → State × Reply) (s : State) : (s.owner i f).ciu = (f s).1.ciu := by
  simp [State.owner]
@[simp] theorem State.owner_ovl (i : Instr) (f : State → State × Reply) (s : State) : (s.owner i f).ovl = (f s).1.ovl := by
  simp [State.owner]
@[simp] theorem State.owner_pch (i : Instr) (f : State → State × Reply) (s : State) : (s.owner i f).pch = (f s).1.pch := by
  simp [State.owner]
@[simp] theorem State.owner_vgt (i : Instr) (f : State → State × Reply) (s : State) : (s.owner i f).vgt = (f s).1.vgt := by
  simp [State.owner]
@[simp] theorem State.owner_board (i : Instr) (f : State → State × Reply) (s : State) : (s.owner i f).board = (f s).1.board := by
  simp [State.owner]
@[simp] theorem State.owner_raised (i : Instr) (f : State → State × Reply) (s : State) : (s.owner i f).raised = (f s).1.raised := by
  simp [State.owner]

/-! ## setGuard -/

@[simp] theorem State.setGuard_pending (high : Bool) (s : State) : (s.setGuard high).pending = s.pending := rfl
@[simp] theorem State.setGuard_lnk (high : Bool) (s : State) : (s.setGuard high).lnk = s.lnk := rfl
@[simp] theorem State.setGuard_pos (high : Bool) (s : State) : (s.setGuard high).pos = s.pos := rfl
@[simp] theorem State.setGuard_cst (high : Bool) (s : State) : (s.setGuard high).cst = s.cst := rfl
@[simp] theorem State.setGuard_cfu (high : Bool) (s : State) : (s.setGuard high).cfu = s.cfu := rfl
@[simp] theorem State.setGuard_psc (high : Bool) (s : State) : (s.setGuard high).psc = s.psc := rfl
@[simp] theorem State.setGuard_ciu (high : Bool) (s : State) : (s.setGuard high).ciu = s.ciu := rfl
@[simp] theorem State.setGuard_ovl (high : Bool) (s : State) : (s.setGuard high).ovl = s.ovl := rfl
@[simp] theorem State.setGuard_pch (high : Bool) (s : State) : (s.setGuard high).pch = s.pch := rfl
@[simp] theorem State.setGuard_vgt (high : Bool) (s : State) : (s.setGuard high).vgt = s.vgt := rfl
@[simp] theorem State.setGuard_raised (high : Bool) (s : State) : (s.setGuard high).raised = s.raised := rfl
@[simp] theorem State.setGuard_lastAnswer (high : Bool) (s : State) : (s.setGuard high).lastAnswer = s.lastAnswer := rfl
@[simp] theorem State.setGuard_ties (high : Bool) (s : State) : (s.setGuard high).ties = s.ties := rfl
@[simp] theorem State.setGuard_guardHigh (high : Bool) (s : State) : (s.setGuard high).board.guardHigh = high := rfl
@[simp] theorem State.setGuard_resetLow (high : Bool) (s : State) : (s.setGuard high).board.resetLow = s.board.resetLow := rfl

/-! ## markWhere -/

@[simp] theorem State.markWhere_pending (on : Bool) (s : State) : (s.markWhere on).pending = s.pending := rfl
@[simp] theorem State.markWhere_lnk (on : Bool) (s : State) : (s.markWhere on).lnk = s.lnk := rfl
@[simp] theorem State.markWhere_pos (on : Bool) (s : State) : (s.markWhere on).pos = s.pos := rfl
@[simp] theorem State.markWhere_cst (on : Bool) (s : State) : (s.markWhere on).cst = s.cst := rfl
@[simp] theorem State.markWhere_cfu (on : Bool) (s : State) : (s.markWhere on).cfu = s.cfu := rfl
@[simp] theorem State.markWhere_ciu (on : Bool) (s : State) : (s.markWhere on).ciu = s.ciu := rfl
@[simp] theorem State.markWhere_ovl (on : Bool) (s : State) : (s.markWhere on).ovl = s.ovl := rfl
@[simp] theorem State.markWhere_pch (on : Bool) (s : State) : (s.markWhere on).pch = s.pch := rfl
@[simp] theorem State.markWhere_vgt (on : Bool) (s : State) : (s.markWhere on).vgt = s.vgt := rfl
@[simp] theorem State.markWhere_board (on : Bool) (s : State) : (s.markWhere on).board = s.board := rfl
@[simp] theorem State.markWhere_raised (on : Bool) (s : State) : (s.markWhere on).raised = s.raised := rfl
@[simp] theorem State.markWhere_lastAnswer (on : Bool) (s : State) : (s.markWhere on).lastAnswer = s.lastAnswer := rfl
@[simp] theorem State.markWhere_ties (on : Bool) (s : State) : (s.markWhere on).ties = s.ties := rfl
@[simp] theorem State.markWhere_ctxs (on : Bool) (s : State) : (s.markWhere on).psc.ctxs = s.psc.ctxs := rfl
@[simp] theorem State.markWhere_pointer (on : Bool) (s : State) : (s.markWhere on).psc.pointer = s.psc.pointer := rfl
@[simp] theorem State.markWhere_refind (on : Bool) (s : State) : (s.markWhere on).psc.refind = (s.psc.refind || on) := rfl

/-! ## edgeFirst -/

/-- A running edge aborts nothing, so its first step changes nothing and sets no mark. -/
theorem State.edgeFirst_running (e : FrameEdge) (s : State) (h : runningEdge e = true) : s.edgeFirst e = (s, false) := by
  simp [State.edgeFirst, State.edgeAborts, h]

/-- The re-find mark that step 2 finds is the one that stood when the edge was taken (R46). -/
@[simp] theorem State.edgeFirst_refind (e : FrameEdge) (s : State) : (s.edgeFirst e).1.psc.refind = s.psc.refind := rfl

/-! ## takeInTurn -/

/-- All that taking an event of an ordered way can do: the event is next and its block acts, or it is not and nothing
changes (R119, R133, R144). -/
theorem State.takeInTurn_cases (i : Instr) (f : State → State) (s : State) :
    (s.inTurn i = true ∧ s.takeInTurn i f = f (s.taken i)) ∨ (s.inTurn i = false ∧ s.takeInTurn i f = s) := by
  unfold State.takeInTurn
  cases h : s.inTurn i
  · exact .inr ⟨rfl, rfl⟩
  · exact .inl ⟨rfl, rfl⟩

/-- What every act of a block leaves alone, and taking leaves alone, taking in turn leaves alone. -/
theorem State.takeInTurn_keeps {α : Type} (g : State → α) (i : Instr) (f : State → State) (s : State)
    (hf : ∀ x, g (f x) = g x) (ht : g (s.taken i) = g s) : g (s.takeInTurn i f) = g s := by
  obtain ⟨-, h⟩ | ⟨-, h⟩ := s.takeInTurn_cases i f
  · rw [h, hf, ht]
  · rw [h]

/-- An event waits only for events of its own way. -/
theorem channelOf_of_waitsFor (i j : Instr) (h : waitsFor i j = true) : channelOf j = channelOf i := by
  unfold waitsFor at h
  split at h
  · cases h
  · simpa using h

/-- An event waits for an equal one, which is itself or goes before it. -/
theorem waitsFor_self (i : Instr) : waitsFor i i = true := by
  cases i <;> simp [waitsFor]

/-- An event is in turn when no event of its way waits. -/
theorem State.inTurn_of_none (i : Instr) (s : State) (h : ∀ j ∈ s.raised, channelOf j ≠ channelOf i) : s.inTurn i = true := by
  have : s.raised.find? (waitsFor i) = none := by
    rw [List.find?_eq_none]
    intro j hj hw
    exact h j hj (channelOf_of_waitsFor i j hw)
  simp [State.inTurn, this]

/-- An event that stands first of its way is in turn. -/
theorem State.inTurn_of_first (i : Instr) (s : State) (before after : List Instr) (h : s.raised = before ++ i :: after)
    (hb : ∀ j ∈ before, channelOf j ≠ channelOf i) : s.inTurn i = true := by
  have hn : before.find? (waitsFor i) = none := by
    rw [List.find?_eq_none]
    intro j hj hw
    exact hb j hj (channelOf_of_waitsFor i j hw)
  simp [State.inTurn, h, List.find?_append, hn, waitsFor_self]

/-! ## Fields an update sets, and the state apart from the link -/

@[simp] theorem State.post_raised (es : List Instr) (s : State) : (s.post es).raised = s.raised ++ es := rfl
@[simp] theorem State.taken_raised (i : Instr) (s : State) : (s.taken i).raised = s.raised.erase i := rfl
@[simp] theorem State.modReel_playReel (r : Fin 8) (f : Reel → Reel) (s : State) :
    (s.modReel r f).cst.playReel = s.cst.playReel := rfl
@[simp] theorem State.modReel_editReel (r : Fin 8) (f : Reel → Reel) (s : State) :
    (s.modReel r f).cst.editReel = s.cst.editReel := rfl
@[simp] theorem State.modReel_pendingPlay (r : Fin 8) (f : Reel → Reel) (s : State) :
    (s.modReel r f).cst.pendingPlay = s.cst.pendingPlay := rfl
@[simp] theorem State.modCue_playReel (r : Fin 8) (slot : Nat) (f : Cue → Cue) (s : State) :
    (s.modCue r slot f).cst.playReel = s.cst.playReel := rfl
@[simp] theorem State.modCue_pendingPlay (r : Fin 8) (slot : Nat) (f : Cue → Cue) (s : State) :
    (s.modCue r slot f).cst.pendingPlay = s.cst.pendingPlay := rfl
@[simp] theorem State.setPointer_pointer (p : Option Nat) (s : State) : (s.setPointer p).psc.pointer = p := rfl
@[simp] theorem State.setRx_rx (rx : Rx) (s : State) : (s.setRx rx).lnk.rx = rx := rfl

/-- The state apart from the link sees nothing of a choice of the transmitter. -/
@[simp] theorem State.transmit_apart (s : State) : s.transmit.apart = s.apart := by
  unfold State.transmit; split <;> rfl

/-- Nor of a notice. -/
@[simp] theorem State.raise_apart (n : Notice) (s : State) : (s.raise n).apart = s.apart := by
  simp [State.raise]; rfl

/-- Nor of a tie settled. -/
@[simp] theorem State.settleTie_apart (w : Bool) (s : State) : (s.settleTie w).apart = s.apart := by
  unfold State.settleTie; split <;> (try split) <;> rfl

/-- Nor of an answer delivered. -/
@[simp] theorem State.deliver_apart (i : Instr) (a : Answer) (s t : State) : (s.deliver i a t).apart = t.apart := by
  unfold State.deliver; dsimp only; split
  · simp; rfl
  · rfl

/-- So an owner's event leaves, apart from the link, what its own work leaves. -/
@[simp] theorem State.owner_apart (i : Instr) (f : State → State × Reply) (s : State) :
    (s.owner i f).apart = (f s).1.apart := by
  simp [State.owner]

end Sys2Proof.Machine
end

