-- ==== Sys2Proof/Laws/Link.lean ====
section
/-! SUPPORT. What each shared operation of the link can do to what the link holds: the transmitter's choice moves a
message and keeps what is held; a notice joins at the tail where there is room; an answer fills the empty place. -/

namespace Sys2Proof.Machine

/-! ## The transmitter -/

/-- A choice of the transmitter keeps the notices held and their order. -/
@[simp] theorem Link.choose_noticesHeld (l : Link) : l.choose.noticesHeld = l.noticesHeld := by
  unfold Link.choose
  split
  · rfl
  · rename_i h
    split
    · simp [Link.noticesHeld, h]
    · simp [Link.noticesHeld, h]
    all_goals
      split
      · simp_all [Link.noticesHeld]
      · rfl

/-- A choice of the transmitter keeps the answers held and their order. -/
@[simp] theorem Link.choose_placesHeld (l : Link) : l.choose.placesHeld = l.placesHeld := by
  unfold Link.choose
  split
  · rfl
  · rename_i h
    split
    · simp_all [Link.placesHeld]
    · simp_all [Link.placesHeld]
    all_goals
      split
      · simp_all [Link.placesHeld]
      · rfl

@[simp] theorem Link.choose_held (l : Link) : l.choose.held = l.held := by
  unfold Link.choose; split <;> (try split) <;> (try split) <;> rfl

@[simp] theorem Link.choose_rx (l : Link) : l.choose.rx = l.rx := by
  unfold Link.choose; split <;> (try split) <;> (try split) <;> rfl

@[simp] theorem Link.choose_overrun (l : Link) : l.choose.overrun = l.overrun := by
  unfold Link.choose; split <;> (try split) <;> (try split) <;> rfl

/-- A choice of the transmitter takes at most from the queue. -/
theorem Link.choose_notices_le (l : Link) : l.choose.notices.length ≤ l.notices.length := by
  unfold Link.choose; split <;> (try split) <;> (try split) <;> simp_all

/-- A choice of the transmitter takes at most from the link's own answers. -/
theorem Link.choose_ownAnswers_le (l : Link) : l.choose.ownAnswers ≤ l.ownAnswers := by
  unfold Link.choose; split <;> (try split) <;> (try split) <;> simp_all [Link.ownAnswers]

/-- A busy transmitter chooses nothing. -/
theorem Link.choose_busy (l : Link) (h : l.wire.isSome) : l.choose = l := by
  obtain ⟨m, hm⟩ := Option.isSome_iff_exists.mp h
  simp [Link.choose, hm]

@[simp] theorem State.transmit_noticesHeld (s : State) : s.transmit.lnk.noticesHeld = s.lnk.noticesHeld := by
  unfold State.transmit; split <;> simp

@[simp] theorem State.transmit_placesHeld (s : State) : s.transmit.lnk.placesHeld = s.lnk.placesHeld := by
  unfold State.transmit; split <;> simp

@[simp] theorem State.transmit_held (s : State) : s.transmit.lnk.held = s.lnk.held := by
  unfold State.transmit; split <;> simp

@[simp] theorem State.transmit_rx (s : State) : s.transmit.lnk.rx = s.lnk.rx := by
  unfold State.transmit; split <;> simp

@[simp] theorem State.transmit_overrun (s : State) : s.transmit.lnk.overrun = s.lnk.overrun := by
  unfold State.transmit; split <;> simp

theorem State.transmit_notices_le (s : State) : s.transmit.lnk.notices.length ≤ s.lnk.notices.length := by
  unfold State.transmit; split
  · exact Nat.le_refl _
  · exact Link.choose_notices_le _

/-! ## Notices -/

/-- A notice that finds room joins behind those held. -/
theorem Link.join_noticesHeld (n : Notice) (l : Link) (h : l.roomFor 1) :
    (l.join n).noticesHeld = l.noticesHeld ++ [n] := by
  have h' : l.notices.length < Config.noticeRoom := h
  unfold Link.join
  rw [if_pos h']
  unfold Link.noticesHeld
  split <;> simp_all

/-- A notice that finds 24 waiting is discarded and sets the overrun flag (R173, R174). -/
theorem Link.join_full (n : Notice) (l : Link) (h : ¬ l.roomFor 1) : l.join n = { l with overrun := true } := by
  have h' : ¬ l.notices.length < Config.noticeRoom := h
  simp [Link.join, h']

@[simp] theorem Link.join_placesHeld (n : Notice) (l : Link) : (l.join n).placesHeld = l.placesHeld := by
  unfold Link.join; split <;> rfl

@[simp] theorem Link.join_held (n : Notice) (l : Link) : (l.join n).held = l.held := by
  unfold Link.join; split <;> rfl

@[simp] theorem Link.join_rx (n : Notice) (l : Link) : (l.join n).rx = l.rx := by
  unfold Link.join; split <;> rfl

theorem Link.join_overrun (n : Notice) (l : Link) (h : l.roomFor 1) : (l.join n).overrun = l.overrun := by
  have h' : l.notices.length < Config.noticeRoom := h
  simp [Link.join, h']

theorem Link.join_notices_le (n : Notice) (l : Link) : (l.join n).notices.length ≤ l.notices.length + 1 := by
  unfold Link.join; split <;> simp

/-- Nothing raised. -/
theorem Noticed.refl (s : State) : Noticed [] s s := by simp [Noticed]

/-- Notices raised by one piece of work and then by another. -/
theorem Noticed.trans {ms ns : List Notice} {s t u : State} (h : Noticed ms s t) (h' : Noticed ns t u) :
    Noticed (ms ++ ns) s u := by
  obtain ⟨a1, a2, a3, a4, a5, a6, a7⟩ := h
  obtain ⟨b1, b2, b3, b4, b5, b6, b7⟩ := h'
  exact ⟨by rw [b1, a1, List.append_assoc], b2.trans a2, b3.trans a3, b4.trans a4, b5.trans a5, b6.trans a6, b7.trans a7⟩

/-- A notice raised with room for it. -/
theorem State.raise_noticed (n : Notice) (s : State) (h : s.lnk.roomFor 1) : Noticed [n] s (s.raise n) := by
  refine ⟨?_, ?_, ?_, ?_, ?_, ?_, ?_⟩ <;> simp [State.raise, Link.join_noticesHeld, Link.join_overrun, h]

/-- A notice takes at most one place of the queue. -/
theorem State.raise_room (n : Notice) (s : State) (k : Nat) (h : s.lnk.roomFor (k + 1)) : (s.raise n).lnk.roomFor k := by
  have h1 := State.transmit_notices_le { s with lnk := s.lnk.join n }
  have h2 := Link.join_notices_le n s.lnk
  have h3 : s.lnk.notices.length + (k + 1) ≤ Config.noticeRoom := h
  show (s.raise n).lnk.notices.length + k ≤ Config.noticeRoom
  unfold State.raise
  dsimp only at h1
  omega

/-- A change of the state outside the link raises nothing. -/
theorem Noticed.of_lnk {s t : State} (h : t.lnk = s.lnk) (h' : t.lastAnswer = s.lastAnswer) (h'' : t.ties = s.ties) :
    Noticed [] s t := by
  simp [Noticed, h, h', h'']

/-! ## Answers -/

/-- A filled place is passed over. -/
@[simp] theorem fillPlace_filled (a b : Answer) (ps : List Place) :
    fillPlace a (.owner (some b) :: ps) = .owner (some b) :: fillPlace a ps := rfl

@[simp] theorem fillPlace_link (a : Answer) (b : LinkAnswer) (ps : List Place) :
    fillPlace a (.link b :: ps) = .link b :: fillPlace a ps := rfl

@[simp] theorem fillPlace_empty (a : Answer) (ps : List Place) :
    fillPlace a (.owner none :: ps) = .owner (some a) :: ps := rfl

theorem Link.fill_placesHeld (a : Answer) (l : Link) : (l.fill a).placesHeld = fillPlace a l.placesHeld := by
  unfold Link.placesHeld Link.fill
  dsimp only
  split <;> simp_all

theorem Link.hold_placesHeld (b : List Byte) (l : Link) : (l.hold b).placesHeld = l.placesHeld ++ [.owner none] := by
  unfold Link.placesHeld Link.hold
  dsimp only
  split <;> simp_all

@[simp] theorem Link.fill_noticesHeld (a : Answer) (l : Link) : (l.fill a).noticesHeld = l.noticesHeld := rfl
@[simp] theorem Link.hold_noticesHeld (b : List Byte) (l : Link) : (l.hold b).noticesHeld = l.noticesHeld := rfl
@[simp] theorem Link.fill_rx (a : Answer) (l : Link) : (l.fill a).rx = l.rx := rfl
@[simp] theorem Link.hold_rx (b : List Byte) (l : Link) : (l.hold b).rx = l.rx := rfl
@[simp] theorem Link.fill_overrun (a : Answer) (l : Link) : (l.fill a).overrun = l.overrun := rfl
@[simp] theorem Link.hold_overrun (b : List Byte) (l : Link) : (l.hold b).overrun = l.overrun := rfl

/-- A tie settled keeps all that the link holds. -/
theorem State.settleTie_keeps (w : Bool) (s : State) :
    (s.settleTie w).lnk.noticesHeld = s.lnk.noticesHeld ∧ (s.settleTie w).lnk.placesHeld = s.lnk.placesHeld
      ∧ (s.settleTie w).lnk.held = s.lnk.held ∧ (s.settleTie w).lnk.rx = s.lnk.rx
      ∧ (s.settleTie w).lnk.overrun = s.lnk.overrun ∧ (s.settleTie w).lastAnswer = s.lastAnswer := by
  unfold State.settleTie
  split
  · rename_i hw ha
    split <;> simp_all [Link.noticesHeld, Link.placesHeld]
  · simp

/-- An owner's event whose work raised the notices `ns` answers with its reply, and the answer goes its way through the
link. -/
theorem State.owner_answered (i : Instr) (f : State → State × Reply) (s : State) (ns : List Notice)
    (h : Noticed ns s (f s).1) :
    Answered i (f s).2.result (f s).2.data ns s (s.owner i f)
      ∧ Delivered i { kind := (kindOf i).getD 0, result := (f s).2.result, data := (f s).2.data } s (s.owner i f) := by
  obtain ⟨h1, h2, h3, h4, h5, -, -⟩ := h
  simp only [Answered, Delivered, State.owner, State.deliver, State.placesAfter, State.heldAfter]
  split
  · rename_i hc
    have k := State.settleTie_keeps s.lnk.wire.isNone (State.transmit { (f s).1 with
      lastAnswer := some { kind := (kindOf i).getD 0, result := (f s).2.result, data := (f s).2.data },
      lnk := (if s.lnk.held.isNone then (f s).1.lnk.hold (bodyOf i) else (f s).1.lnk).fill
        { kind := (kindOf i).getD 0, result := (f s).2.result, data := (f s).2.data } })
    obtain ⟨k1, k2, k3, k4, k5, k6⟩ := k
    refine ⟨⟨k6.trans ?_, k1.trans ?_, k4.trans ?_, k5.trans ?_⟩, k2.trans ?_, k3.trans ?_⟩
    · simp
    · simp only [State.transmit_noticesHeld, Link.fill_noticesHeld]
      split <;> simp [h1]
    · simp only [State.transmit_rx, Link.fill_rx]
      split <;> simp [h4]
    · simp only [State.transmit_overrun, Link.fill_overrun]
      split <;> simp [h5]
    · simp only [State.transmit_placesHeld, Link.fill_placesHeld]
      split <;> simp_all [Link.hold_placesHeld]
    · simp only [State.transmit_held]
      cases hh : s.lnk.held with
      | none => simp [Link.fill, Link.hold]
      | some x => simp [hh, Link.fill, h3]
  · simp [h1, h2, h3, h4, h5]

end Sys2Proof.Machine
end

