-- ==== Sys2Proof/Laws/Lines.lean ====
section
/-! SUPPORT. What each shared operation of the Punch Unit can do: sets of lines, changes of line records, and the
transfers of context and manual entries. -/

namespace Sys2Proof.Machine

/-! ## Sets -/

/-- A bit of a set that holds a member or nothing. -/
theorem getLsbD_member (b : Bool) (v : BitVec 8) (i : Nat) : (if b then v else 0#8).getLsbD i = (b && v.getLsbD i) := by
  cases b <;> simp

/-- A line is in the set of those that satisfy `p` exactly when it satisfies `p`. -/
@[simp] theorem inSet_setOf (p : Fin 8 → Bool) (k : Fin 8) : inSet k (setOf p) = p k := by
  simp only [inSet, setOf, BitVec.getLsbD_or, getLsbD_member]
  fin_cases k <;> simp

/-- Two sets of lines with the same members are equal. -/
theorem LineSet.ext_inSet (a b : LineSet) (h : ∀ k, inSet k a = inSet k b) : a = b := by
  apply BitVec.eq_of_getLsbD_eq
  intro i hi
  exact h ⟨i, hi⟩

/-- A context is in the set of those that satisfy `p` exactly when it satisfies `p`. -/
theorem ctxSetOf_getLsbD (p : Fin 4 → Bool) (k : Fin 4) : (ctxSetOf p).getLsbD k.val = p k := by
  simp only [ctxSetOf, BitVec.getLsbD_or, getLsbD_member]
  fin_cases k <;> simp

/-! ## Line records -/

theorem mapLines_get (f : Fin 8 → Line → Line) (v : Vector Line 8) (k : Fin 8) : (mapLines f v)[k] = f k v[k] := by
  fin_cases k <;> rfl

@[simp] theorem mapLines_getElem (f : Fin 8 → Line → Line) (v : Vector Line 8) (i : Nat) (h : i < 8) :
    (mapLines f v)[i] = f ⟨i, h⟩ v[i] :=
  mapLines_get f v ⟨i, h⟩

@[simp] theorem Pch.inSet_linesWhere (p : Pch) (q : Fin 8 → Line → Bool) (k : Fin 8) :
    inSet k (p.linesWhere q) = q k p.lines[k] := by
  simp [Pch.linesWhere]

@[simp] theorem Pch.give_line (o : Owner) (set : LineSet) (p : Pch) (i : Nat) (h : i < 8) :
    (p.give o set).lines[i] = if inSet ⟨i, h⟩ set then p.lines[i].give o else p.lines[i] := by
  simp [Pch.give]

@[simp] theorem Pch.putOut_line (set : LineSet) (p : Pch) (i : Nat) (h : i < 8) :
    (p.putOut set).lines[i] = if inSet ⟨i, h⟩ set then p.lines[i].putOut else p.lines[i] := by
  simp [Pch.putOut]

@[simp] theorem Pch.inSet_ownedBy (p : Pch) (j : Fin 4) (k : Fin 8) :
    inSet k (p.ownedBy j) = decide (p.lines[k].owner = .context j) := by
  simp [Pch.ownedBy]

/-- Giving or putting out lines touches nothing of the unit but the line records. -/
theorem Pch.give_rest (o : Owner) (set : LineSet) (p : Pch) : p.give o set = { p with lines := (p.give o set).lines } := rfl

theorem Pch.putOut_rest (set : LineSet) (p : Pch) : p.putOut set = { p with lines := (p.putOut set).lines } := rfl

/-! ## Transfers -/

/-- All that the transfer of a context entry does, with room for its notice. -/
theorem State.transfer_transferred (j : Fin 4) (e : Staged) (s : State) (h : s.lnk.roomFor 1) :
    Transferred j e s (s.transfer j e) := by
  cases he : e.action with
  | punchIn =>
    refine ⟨s.pch.grantable e.lines, ?_, ?_, ?_, ?_⟩
    · intro k
      simp [Pch.grantable, he, Bool.and_assoc]
    · intro k
      simp [State.transfer, State.transferIn, he, Line.give]
    · simp [State.transfer, State.transferIn, he, State.post, Pch.give]
    · simp only [he, State.transfer, State.transferIn]
      exact (Noticed.of_lnk rfl rfl rfl).trans (State.raise_noticed _ _ h)
  | punchOut =>
    refine ⟨s.pch.ownedBy j, ?_, ?_, ?_, ?_⟩
    · intro k
      simp [he]
    · intro k
      simp [State.transfer, State.transferOut, he, Line.putOut]
    · simp [State.transfer, State.transferOut, he, State.post, Pch.putOut]
    · simp only [he, State.transfer, State.transferOut]
      exact (Noticed.of_lnk rfl rfl rfl).trans (State.raise_noticed _ _ h)

/-- The lines that the transfer of a manual entry moves. -/
theorem Pch.inSet_manualLines (p : Pch) (e : ManualEntry) (k : Fin 8) :
    inSet k (p.manualLines e.lines (if e.action = .punchIn then .nobody else .manual)) = ManualMoves e p k := by
  simp [Pch.manualLines, ManualMoves, Bool.and_assoc]

/-- All that the transfer of a manual entry does to the lines. -/
theorem State.transferManual_moved (e : ManualEntry) (s : State) : ManualMoved e s.pch (s.transferManual e).pch := by
  intro k
  have h := Pch.inSet_manualLines s.pch e k
  cases he : e.action <;> simp only [he, if_true, reduceCtorEq, if_false] at h <;>
    simp [State.transferManual, he, h, Line.give, Line.putOut]

end Sys2Proof.Machine
end

