-- ==== Sys2Proof/Laws/Store.lean ====
section
/-! SUPPORT. What each shared operation of the Cue Store can do: a cue record changed, created or removed, the place of a
cue in an order list, in-use values that take new ones, and a pass context given a value. -/

namespace Sys2Proof.Machine

/-! ## Cue records of a reel -/

/-- A lookup at the head of a slot table. -/
theorem lookup_slot (k a : Nat) (c : Cue) (l : List (Nat × Cue)) :
    List.lookup k ((a, c) :: l) = if k = a then some c else l.lookup k := by
  rw [List.lookup_cons]
  by_cases h : k = a
  · simp [h]
  · simp [h, beq_false_of_ne h]

/-- A change of one cue record reaches that slot alone. -/
theorem Reel.cue_modCue (slot k : Nat) (f : Cue → Cue) (r : Reel) :
    (r.modCue slot f).cue k = if k = slot then (r.cue k).map f else r.cue k := by
  unfold Reel.cue Reel.modCue
  dsimp only
  induction r.cues with
  | nil => simp
  | cons p rest ih =>
    obtain ⟨a, c⟩ := p
    rw [List.map_cons, lookup_slot]
    by_cases hp : a = slot
    · rw [if_pos hp, lookup_slot, ih]
      by_cases hk : k = a <;> simp_all
    · rw [if_neg hp, lookup_slot, ih]
      by_cases hk : k = a
      · simp [hk, hp]
      · by_cases hs : k = slot <;> simp_all

/-- A change of one cue record makes no slot live or free. -/
@[simp] theorem Reel.keys_modCue (slot : Nat) (f : Cue → Cue) (r : Reel) :
    (r.modCue slot f).cues.map Prod.fst = r.cues.map Prod.fst := by
  unfold Reel.modCue
  rw [List.map_map]
  apply List.map_congr_left
  intro p _
  dsimp only [Function.comp]
  split <;> rfl

@[simp] theorem Reel.order_modCue (slot : Nat) (f : Cue → Cue) (r : Reel) : (r.modCue slot f).order = r.order := rfl
@[simp] theorem Reel.tag_modCue (slot : Nat) (f : Cue → Cue) (r : Reel) : (r.modCue slot f).tag = r.tag := rfl
@[simp] theorem Reel.state_modCue (slot : Nat) (f : Cue → Cue) (r : Reel) : (r.modCue slot f).state = r.state := rfl
@[simp] theorem Reel.conform_modCue (slot : Nat) (f : Cue → Cue) (r : Reel) : (r.modCue slot f).conform = r.conform := rfl
@[simp] theorem Reel.earliest_modCue (slot : Nat) (f : Cue → Cue) (r : Reel) : (r.modCue slot f).earliest = r.earliest := rfl
@[simp] theorem Reel.latest_modCue (slot : Nat) (f : Cue → Cue) (r : Reel) : (r.modCue slot f).latest = r.latest := rfl

/-- A slot is live exactly when it is one of the keys. -/
theorem Reel.cue_isSome_iff (r : Reel) (k : Nat) : (r.cue k).isSome = true ↔ k ∈ r.cues.map Prod.fst := by
  unfold Reel.cue
  induction r.cues with
  | nil => simp
  | cons p rest ih =>
    obtain ⟨a, c⟩ := p
    rw [lookup_slot]
    by_cases hk : k = a <;> simp_all

/-- A record put into a free slot of a slot table. -/
theorem lookup_insertSlot (slot k : Nat) (c : Cue) (l : List (Nat × Cue)) (h : l.lookup slot = none) :
    (insertSlot slot c l).lookup k = if k = slot then some c else l.lookup k := by
  induction l with
  | nil => rw [insertSlot, lookup_slot]
  | cons p rest ih =>
    obtain ⟨a, d⟩ := p
    rw [lookup_slot] at h
    have hne : slot ≠ a := by
      intro e
      simp [e] at h
    rw [if_neg hne] at h
    rw [insertSlot]
    split
    · rw [lookup_slot]
    · rw [lookup_slot, lookup_slot, ih h]
      by_cases hk : k = a <;> simp_all [Ne.symm hne]

/-- The cue records of a reel in which a cue is created in a free slot. -/
theorem Reel.cue_create (slot k : Nat) (c : Cue) (r : Reel) (h : r.cue slot = none) :
    (r.create slot c).cue k = if k = slot then some c else r.cue k :=
  lookup_insertSlot slot k c r.cues h

/-- The cue records of a reel out of which the cue of a slot is removed. -/
theorem Reel.cue_remove (slot k : Nat) (r : Reel) : (r.remove slot).cue k = if k = slot then none else r.cue k := by
  have h : (r.remove slot).cue k = (r.cues.filter fun p => p.1 != slot).lookup k := by
    unfold Reel.remove Reel.cue
    dsimp only
    split <;> rfl
  rw [h]
  unfold Reel.cue
  induction r.cues with
  | nil => simp
  | cons p rest ih =>
    obtain ⟨a, c⟩ := p
    rw [List.filter_cons, lookup_slot]
    by_cases hp : a = slot
    · simp only [hp, bne_self_eq_false, Bool.false_eq_true, if_false, ih]
      by_cases hk : k = slot <;> simp [hk]
    · simp only [bne_iff_ne, ne_eq, hp, not_false_eq_true, if_true, lookup_slot, ih]
      by_cases hk : k = a <;> simp [hk, hp]

/-- The header points of a reel recomputed are those of its live cues. -/
theorem Reel.recompute_points (r : Reel) : PointsOf r.recompute := ⟨rfl, rfl⟩

@[simp] theorem Reel.recompute_cue (r : Reel) (k : Nat) : r.recompute.cue k = r.cue k := rfl
@[simp] theorem Reel.recompute_order (r : Reel) : r.recompute.order = r.order := rfl
@[simp] theorem Reel.recompute_before (r : Reel) : r.recompute.before = r.before := rfl

/-! ## The order list -/

/-- A slot is placed before the first entry that it comes before, and the entries keep their order. -/
theorem Reel.place_splits (r : Reel) (slot : Nat) (old : List Nat) :
    ∃ k ≤ old.length, r.place slot old = old.take k ++ slot :: old.drop k
      ∧ (∀ x ∈ old.take k, r.before slot x = false) ∧ ∀ x ∈ (old.drop k).head?, r.before slot x = true := by
  induction old with
  | nil => exact ⟨0, by simp, by simp [Reel.place], by simp, by simp⟩
  | cons x rest ih =>
    cases hb : r.before slot x with
    | true => exact ⟨0, by simp, by simp [Reel.place, hb], by simp, by simp [hb]⟩
    | false =>
      obtain ⟨k, hk, h1, h2, h3⟩ := ih
      refine ⟨k + 1, by simpa using hk, by simp [Reel.place, hb, h1], ?_, by simpa using h3⟩
      intro y hy
      rw [List.take_succ_cons, List.mem_cons] at hy
      rcases hy with rfl | hy
      · exact hb
      · exact h2 y hy

/-- Placing a slot adds it once and keeps the rest. -/
theorem Reel.place_perm (r : Reel) (slot : Nat) (old : List Nat) : (r.place slot old).Perm (slot :: old) := by
  obtain ⟨k, -, h, -, -⟩ := r.place_splits slot old
  rw [h]
  exact List.perm_middle.trans (by rw [List.take_append_drop])

/-- A cue that joins the order list stands at its place in it. -/
theorem Reel.joinOrder_joined (slot : Nat) (r : Reel) : JoinedOrder slot r.order (r.joinOrder slot) :=
  r.place_splits slot r.order

/-! ## In-use values that take new ones -/

/-- The cue records after in-use values took new ones. -/
theorem Reel.cue_applyVals (slot k : Nat) (c : Cue) (v : CueVals) (r : Reel) :
    (r.applyVals slot c v).cue k = if k = slot then
      (r.cue k).map fun x => { x with vals := v, waited := x.waited && !(v.inPt != c.vals.inPt) } else r.cue k := by
  have h : (r.applyVals slot c v).cue k
      = (r.modCue slot fun x => { x with vals := v, waited := x.waited && !(v.inPt != c.vals.inPt) }).cue k := by
    unfold Reel.applyVals
    dsimp only
    split <;> split <;> rfl
  rw [h, Reel.cue_modCue]

/-- Where the in-point is the same the order list stays; otherwise the cue has moved to its place (R35). -/
theorem Reel.order_applyVals (slot : Nat) (c : Cue) (v : CueVals) (r : Reel) :
    if v.inPt = c.vals.inPt then (r.applyVals slot c v).order = r.order
    else JoinedOrder slot (r.order.erase slot) (r.applyVals slot c v) := by
  by_cases h : v.inPt = c.vals.inPt
  · rw [if_pos h]
    simp only [Reel.applyVals, h, bne_self_eq_false, Bool.false_eq_true, if_false]
    split <;> rfl
  · rw [if_neg h]
    have hb : (v.inPt != c.vals.inPt) = true := by simpa using h
    simp only [Reel.applyVals, hb, if_true, Bool.true_or]
    exact (Reel.leaveOrder slot _).place_splits slot _

/-- Where both frames are the same the header points stay; otherwise they are those of the live cues (R35). -/
theorem Reel.points_applyVals (slot : Nat) (c : Cue) (v : CueVals) (r : Reel) :
    if v.inPt = c.vals.inPt ∧ v.outPt = c.vals.outPt then
      (r.applyVals slot c v).earliest = r.earliest ∧ (r.applyVals slot c v).latest = r.latest
    else PointsOf (r.applyVals slot c v) := by
  by_cases h : v.inPt = c.vals.inPt ∧ v.outPt = c.vals.outPt
  · rw [if_pos h]
    simp [Reel.applyVals, h.1, h.2]
  · rw [if_neg h]
    have hb : ((v.inPt != c.vals.inPt) || v.outPt != c.vals.outPt) = true := by
      simp only [Bool.or_eq_true, bne_iff_ne]
      by_contra hc
      simp only [not_or, not_not] at hc
      exact h hc
    simp only [Reel.applyVals, hb, if_true]
    exact Reel.recompute_points _

/-! ## Reels and contexts of the state -/

@[simp] theorem State.reel_modReel (r r' : Fin 8) (f : Reel → Reel) (s : State) :
    (s.modReel r f).reel r' = if r' = r then f (s.reel r) else s.reel r' := by
  unfold State.reel State.modReel
  dsimp only
  by_cases h : r' = r
  · subst h
    simp
  · rw [if_neg h]
    have hne : r.val ≠ r'.val := fun e => h (Fin.ext e.symm)
    simp [hne]

/-- A change of one cue record of one reel. -/
theorem State.cue_modCue (r r' : Fin 8) (slot k : Nat) (f : Cue → Cue) (s : State) :
    (s.modCue r slot f).cue r' k = if r' = r ∧ k = slot then (s.cue r' k).map f else s.cue r' k := by
  unfold State.cue State.modCue
  rw [State.reel_modReel]
  by_cases h : r' = r
  · subst h
    simp only [if_true, true_and, Reel.cue_modCue]
  · simp [h]

@[simp] theorem State.ctx_setCtx (k j : Fin 4) (c : Option Ctx) (s : State) :
    (s.setCtx k c).ctx j = if j = k then c else s.ctx j := by
  unfold State.ctx State.setCtx
  dsimp only
  by_cases h : j = k
  · subst h
    simp
  · rw [if_neg h]
    have hne : k.val ≠ j.val := fun e => h (Fin.ext e.symm)
    simp [hne]

/-- What the re-find mark is after a change of a reel. -/
theorem State.markIfPlay_psc (r : Fin 8) (s : State) :
    (s.markIfPlay r).psc = { s.psc with refind := s.psc.refind || decide (r = s.cst.playReel) } := by
  unfold State.markIfPlay
  by_cases h : r = s.cst.playReel <;> simp [h]

end Sys2Proof.Machine
end

