-- ==== Sys2Proof/Laws/Passes.lean ====
section
/-! SUPPORT. What settling a cue, freeing a context, aborting and closing a pass can do, and what the Count-In Unit's shared
operations can do: the fields each leaves alone, and the rule it keeps. -/

namespace Sys2Proof.Machine

/-! ## Settling a cue -/

/-- The settled state of a cue, in the words of R101 and R105. -/
theorem Cue.afterPass_eq (completed : Bool) (c : Cue) : c.afterPass completed =
    { c with
      vals := c.settledVals, waited := c.waited && decide (c.settledVals.inPt = c.vals.inPt), pending := none,
      state := settleState completed c.disarmed c.settledVals.mode c.state } := by
  unfold Cue.afterPass Cue.settledVals Cue.disarmed settleState
  cases c.state <;> rfl

/-- In-use values of a cue of the store that take new ones reach that cue record alone. -/
theorem State.applyVals_edited (r : Fin 8) (slot : Nat) (c : Cue) (v : CueVals) (s : State) (h : s.cue r slot = some c) :
    EditedCue r slot c { c with vals := v, waited := c.waited && decide (v.inPt = c.vals.inPt) } s (s.applyVals r slot c v) := by
  have hr (r' : Fin 8) : (s.applyVals r slot c v).reel r'
      = if r' = r then (s.reel r).applyVals slot c v else s.reel r' := by
    rw [← State.reel_modReel]
    unfold State.applyVals State.markIfPlay
    dsimp only
    split <;> (try split) <;> rfl
  have hb : (!(v.inPt != c.vals.inPt)) = decide (v.inPt = c.vals.inPt) := by
    by_cases e : v.inPt = c.vals.inPt <;> simp [e]
  have hrest : ((s.reel r).applyVals slot c v).tag = (s.reel r).tag ∧ ((s.reel r).applyVals slot c v).state = (s.reel r).state
      ∧ ((s.reel r).applyVals slot c v).conform = (s.reel r).conform := by
    unfold Reel.applyVals
    dsimp only
    split <;> split <;> exact ⟨rfl, rfl, rfl⟩
  have h' : (s.reel r).cue slot = some c := h
  refine ⟨?_, ?_, ?_, ?_, ?_, ?_, ?_, ?_⟩
  · simp [State.cue, hr, Reel.cue_applyVals, h', hb]
  · intro k hk
    simp [State.cue, hr, Reel.cue_applyVals, hk]
  · intro r' hne
    simp [hr, hne]
  · simp [hr, hrest.1]
  · simp [hr, hrest.2.1]
  · simp [hr, hrest.2.2]
  · simpa [hr] using Reel.order_applyVals slot c v (s.reel r)
  · simpa [hr] using Reel.points_applyVals slot c v (s.reel r)

/-- The order of two slots depends on their keys and loop numbers alone. -/
theorem Reel.before_congr {r r' : Reel} (hk : r'.key = r.key) (hl : r'.loopAt = r.loopAt) : r'.before = r.before := by
  funext a b
  simp [Reel.before, hk, hl]

/-- A change of a cue record that leaves its frames, its conform-pending flag and its loop number leaves the order. -/
theorem Reel.before_modCue (slot : Nat) (f : Cue → Cue) (r : Reel)
    (h : ∀ c, (f c).vals = c.vals ∧ (f c).conformPending = c.conformPending ∧ (f c).loop = c.loop) :
    (r.modCue slot f).before = r.before := by
  apply Reel.before_congr
  · funext k
    unfold Reel.key
    rw [Reel.cue_modCue]
    split
    · cases r.cue k with
      | none => rfl
      | some c => simp [Reel.keyOf, h c, Reel.delta]
    · cases r.cue k <;> rfl
  · funext k
    unfold Reel.loopAt
    rw [Reel.cue_modCue]
    split
    · cases r.cue k with
      | none => rfl
      | some c => simp [h c]
    · rfl

/-! ## Freeing a context -/

@[simp] theorem State.applyPendingPlay_ctx (s : State) (k : Fin 4) : s.applyPendingPlay.ctx k = s.ctx k := by
  unfold State.applyPendingPlay
  split
  · simp [State.switchPlay, State.ctx]
  · rfl

@[simp] theorem State.applyPendingPlay_raised (s : State) : s.applyPendingPlay.raised = s.raised := by
  unfold State.applyPendingPlay
  split
  · simp [State.switchPlay]
  · rfl

@[simp] theorem State.applyPendingPlay_reel (s : State) (r : Fin 8) : s.applyPendingPlay.reel r = s.reel r := by
  unfold State.applyPendingPlay
  split
  · simp [State.switchPlay, State.reel]
  · rfl

@[simp] theorem State.raise_ctx (n : Notice) (s : State) (k : Fin 4) : (s.raise n).ctx k = s.ctx k := by
  simp [State.ctx]

@[simp] theorem State.settleCue_ctx (b : Bool) (r : Fin 8) (slot : Nat) (s : State) (k : Fin 4) :
    (s.settleCue b r slot).ctx k = s.ctx k := by
  unfold State.settleCue
  split
  · rfl
  · unfold State.applyVals State.markIfPlay
    dsimp only
    split <;> (try split) <;> rfl

@[simp] theorem State.settleCue_raised (b : Bool) (r : Fin 8) (slot : Nat) (s : State) :
    (s.settleCue b r slot).raised = s.raised := by
  unfold State.settleCue
  split
  · rfl
  · unfold State.applyVals State.markIfPlay
    dsimp only
    split <;> (try split) <;> rfl

@[simp] theorem State.abortTake_ctx (c : Ctx) (s : State) (k : Fin 4) : (s.abortTake c).ctx k = s.ctx k := by
  unfold State.abortTake
  split <;> rfl

@[simp] theorem State.abortTake_raised (c : Ctx) (s : State) : (s.abortTake c).raised = s.raised := by
  unfold State.abortTake
  split <;> rfl

/-- An abort of a context makes it FREE and leaves the others. -/
theorem State.abortCtx_ctx (cause : AbortCause) (k j : Fin 4) (s : State) :
    (s.abortCtx cause k).ctx j = if j = k then none else s.ctx j := by
  unfold State.abortCtx
  split
  · rename_i h
    by_cases e : j = k
    · subst e
      simpa using h
    · simp [e]
  · simp only [State.freeCtx, State.applyPendingPlay_ctx]
    show ((State.setCtx _ _ _).ctx j) = _
    rw [State.ctx_setCtx]
    split
    · rfl
    · simp only [State.raiseEnd, State.raise_ctx, State.settleCue_ctx, State.abortTake_ctx]
      rfl

/-- An abort of a context hands on its release, then its free hand-over (R104, R110). -/
theorem State.abortCtx_raised (cause : AbortCause) (k : Fin 4) (s : State) :
    (s.abortCtx cause k).raised
      = s.raised ++ (s.ctx k).elim [] fun c => [Instr.release k c.loop, Instr.freeHandover k] := by
  unfold State.abortCtx
  split
  · rename_i h
    simp [h]
  · rename_i c h
    simp [h, State.freeCtx, State.post, State.setCtx, State.raiseEnd]

/-! ## Entries -/

/-- While a pending play reel is present, serving a candidate sets at most its waited flag, and that only where all four
contexts are ACTIVE (R93, log entry 31). -/
theorem State.serve_pending (n : Nat) (served : List Nat) (s : State) (slot : Nat) (h : s.cst.pendingPlay.isSome = true) :
    s.serve n served slot = s
      ∨ s.firstFree = none
        ∧ s.serve n served slot = s.modCue s.cst.playReel slot fun x => { x with waited := true } := by
  unfold State.serve
  split
  · exact .inl rfl
  · split
    · split
      · exact .inl (if_pos h)
      · exact .inr ⟨‹_›, rfl⟩
    · exact .inl rfl

/-! ## The Count-In Unit -/

@[simp] theorem mapBeats_getElem (f : Beat → Beat) (v : Vector Beat 4) (i : Nat) (h : i < 4) :
    (mapBeats f v)[i] = f v[i] := by
  have (k : Fin 4) : (mapBeats f v)[k] = f v[k] := by fin_cases k <;> rfl
  exact this ⟨i, h⟩

/-- The sounding context is the lowest-numbered one whose gate is open. -/
theorem lowestOpen_eq_some (v : Vector Beat 4) (k : Fin 4) :
    lowestOpen v = some k ↔ v[k].gate = true ∧ ∀ j : Fin 4, j < k → v[j].gate = false := by
  unfold lowestOpen allCtx
  cases h0 : v[(0 : Fin 4)].gate <;> cases h1 : v[(1 : Fin 4)].gate <;> cases h2 : v[(2 : Fin 4)].gate <;>
    cases h3 : v[(3 : Fin 4)].gate <;> fin_cases k <;>
    simp_all [List.find?, Fin.forall_fin_succ]

end Sys2Proof.Machine
end

