-- ==== Sys2Proof/WellFormed.lean ====
section
/-! DEFINITION. Which terms of `Instr` are events that the part can meet: the operand ranges the rules give the
records that blocks hand one another. Every command of the controller is well formed, since any byte can be
sent and its owner judges it (R180, R182). `exec` gives every term a meaning, well formed or not. -/

namespace Sys2Proof

/-- A frame number of some rate: below the largest F_day of Table 0-3. -/
def frameInDay (n : Nat) : Bool := decide (n < Rate.fps30.fDay)

/-- A position in ticks of some rate (R70). -/
def tickInDay (t : Nat) : Bool := decide (t < Rate.fps30.fDay * Config.ticksPerFrame)

/-- A loop number (R25). -/
def loopInRange (loop : Nat) : Bool := decide (1 ≤ loop) && decide (loop ≤ 9999)

/-- A position state that raises frame edges (R77). -/
def PosState.raisesEdges : PosState → Bool
  | .locked => true
  | .freewheel => true
  | .unknown => false
  | .stopped => false

/-- A completed frame has taken time, and so has the time since the completion before it (R61, R68). -/
def LtcFrame.wellFormed (f : LtcFrame) : Bool := decide (0 < f.duration) && decide (0 < f.gap)

/-- A frame edge carries a frame of the day, a state that raises edges, and the resume mark only on the edge that
locks the position, which is no jump and is not IN_SPEED (R69, R71, R77). -/
def FrameEdge.wellFormed (e : FrameEdge) : Bool :=
  frameInDay e.n && e.state.raisesEdges
    && (!e.resume || (!e.jump && !e.inSpeed && decide (e.state = .locked)))

/-- A stage request names a loop, a frame of the day, and lines for a punch-in only (R132). -/
def StageRequest.wellFormed (r : StageRequest) : Bool :=
  loopInRange r.loop && frameInDay r.target && (decide (r.action = .punchIn) || decide (r.lines = 0))

/-- A punch report names a loop (R136, R137). -/
def PunchReport.wellFormed (r : PunchReport) : Bool := loopInRange r.loop

/-- A lane report names contexts in index order, each once, on a frame edge (R118). -/
def LaneReport.wellFormed (r : LaneReport) : Bool :=
  frameInDay r.n && r.state.raisesEdges && decide ((r.lanes.map fun l => l.1.val).Pairwise (· < ·))

/-- A well-formed command or event. -/
def Instr.wellFormed : Instr → Bool
  | .ltcFrame f => f.wellFormed
  | .pscFrameEdge e => e.wellFormed
  | .pchFrameEdge e => e.wellFormed
  | .punchReport r => r.wellFormed
  | .stageRequest r => r.wellFormed
  | .release _ loop => loopInRange loop
  | .ciuTick t _ => tickInDay t
  | .vgtTick t _ => tickInDay t
  | .entryHandover _ start => frameInDay start
  | .laneReport r => r.wellFormed
  | .onsetReport o q allowance => tickInDay o && tickInDay q && decide (allowance ≤ 48)
  | .coldReset | .warmReset _ | .status | .restart | .setRate _ | .setFreewheel _ | .positionRead
  | .setVoice _ _ | .setFlash _ | .setLines _ _ | .punchManual _ _ | .guardRelease | .passAbort _
  | .reelSelectPlay _ _ | .reelSelectEdit _ | .reelSelectTag _ _ _ | .reelInfo _ | .reelClear | .reelShift _
  | .reelCopy _ _ _ | .reelResume | .cueWrite _ _ | .cueAmend _ _ _ | .cueRetire _ | .cueRead _ | .cueNext _
  | .cueArm _ _ | .cueDisarm _ | .cueProtect _ _ | .takeCircle _ _ _ | .takeRetire _ _ | .rxByte _ _
  | .gapTimerExpiry | .txMessageEnd | .watchTimerExpiry | .freewheelTimerExpiry | .posTick
  | .pscStateEvent _ _ | .guardReport | .pchStateEvent _ _ | .guardTrip _ | .guardRise | .freeHandover _
  | .ovlStateEvent _ _ | .descriptorSent | .voiceEdge _ | .vgtStateEvent _ _ | .shiftStep | .copyStep
  | .toneHalfWave | .resetRelease => true

end Sys2Proof
end

