-- ==== Sys2Proof/Tests/Slice0.lean ====
section
/-! SUPPORT. Tests: a smoke test of well-formedness, tests of single commands against the worked examples and tables of
the spec (each names its source), and for every statement with hypotheses a theorem that meets them. -/

open Sys2Proof Sys2Proof.Machine

/-! ## Small states -/

namespace Sys2Proof.Tests

/-- The state after one command. -/
def after (i : Instr) (s : State) : State :=
  match exec i s with
  | .next t => t
  | .fault _ => s
  | .refused _ => s

/-- The result of the owner's answer to one command. -/
def answerTo (i : Instr) (s : State) : Option Result := (after i s).lastAnswer.map fun a => a.result

/-- The in-use values of a cue that carries no character, colour or flash of interest. -/
def vals (inPt outPt beeps spacing onTime tone streamer tail : Nat) (lines : LineSet) : CueVals :=
  { inPt := inPt, outPt := outPt, char := 7, beeps := beeps, spacing := spacing, onTime := onTime, tone := tone,
    streamer := streamer, colour := 2, tail := tail, lines := lines, mode := .once }

/-- A cue without takes. -/
def cue (loop : Nat) (v : CueVals) (state : CueState) : Cue := { newCue loop v with state := state }

/-- A take without an offset. -/
def take (number : Nat) (result : TakeResult) (circled : Bool) : Take :=
  { number := number, result := result, lines := 0, late := false, guardTripped := false, offset := none,
    circled := circled }

/-- An OPEN reel with the given cues and order list. -/
def reel (cues : List (Nat × Cue)) (order : List Nat) : Reel :=
  Reel.recompute { Reel.reset with state := .opened, cues := cues, order := order }

/-- LOCKED forward at nominal speed at 24 fps. -/
def locked (n : Nat) : Pos :=
  { Pos.reset with state := .locked, n := n, period := some 512000, mark := true }

/-- A running edge. -/
def edge (n : Nat) : FrameEdge :=
  { n := n, dir := .forward, speed := 1000, inSpeed := true, jump := false, resume := false, state := .locked }

/-- The part LOCKED at a frame, with reel 1 both play and edit reel and holding the given cues, and with the Punch Unit
holding lines 0 to 5 in CUE mode. -/
def stage (n : Nat) (cues : List (Nat × Cue)) (order : List Nat) : State :=
  let s : State := { State.reset with pos := locked n, cst := { State.reset.cst with playReel := 1, editReel := 1 } }
  let s := s.modReel 1 fun _ => reel cues order
  { s with
    ovl := { s.ovl with quiet := false },
    psc := { s.psc with pointer := some 0 },
    pch := { s.pch with
      view := .locked, lines := Vector.ofFn fun k => if k.val ≤ 5 then { Line.reset with mode := .cue } else Line.reset } }

/-- A context that serves the cue in a slot of reel 1. -/
def serving (slot loop : Nat) (phase : Phase) (v : CueVals) : Ctx :=
  { reel := 1, slot := slot, loop := loop, kind := .record, phase := phase, entry := v.entry, close := v.close,
    late := false, granted := 0, held := 0, released := 0, take := none }

/-- Loop 31 of the example of Section 2.3, loop 201 of Chapter 5 and loop 301 of Section 6.2 hold these frames. -/
def vals31 : CueVals := vals 89520 89604 3 24 160 47 48 12 0x03

/-- Loop 302 of the example of Section 6.2, with the character, colour and streamer of Section 6.3's. -/
def vals302 : CueVals := { vals 89544 89592 2 24 80 95 24 0 0x04 with char := 9, colour := 5 }

/-- One PASSING cue of the play reel, RECORD, served by context 0. -/
def passing (n : Nat) (phase : Phase) : State :=
  (stage n [(0, cue 31 vals31 (.passing .record))] [0]).setCtx 0 (some (serving 0 31 phase vals31))

/-- The same with a message on LINK TX, so that no answer and notice of one event tie (R175). -/
def sending (s : State) : State := { s with lnk := { s.lnk with wire := some (.linkAnswer ⟨.linkError, 0⟩) } }

/-- The 80 cells of a label in forward order: decimal digits and the sync word as Table 10-10 places them. -/
def cells (hh mm ss ff : Nat) : BitVec 80 :=
  BitVec.ofNat 80 (ff % 10 + ff / 10 * 2 ^ 8 + ss % 10 * 2 ^ 16 + ss / 10 * 2 ^ 24 + mm % 10 * 2 ^ 32 + mm / 10 * 2 ^ 40
    + hh % 10 * 2 ^ 48 + hh / 10 * 2 ^ 56 + 0xBFFC * 2 ^ 64)

/-- A forward frame at nominal speed at 24 fps. -/
def ltc (hh mm ss ff : Nat) : LtcFrame :=
  { cells := cells hh mm ss ff, dir := .forward, duration := 512000, gap := 512000 }

end Sys2Proof.Tests

open Sys2Proof.Tests

/-! ## Well-formedness: one ill-formed term for each check -/

theorem test_wf_frame_duration : (Instr.ltcFrame { ltc 1 2 10 0 with duration := 0 }).wellFormed = false := by decide
theorem test_wf_frame_gap : (Instr.ltcFrame { ltc 1 2 10 0 with gap := 0 }).wellFormed = false := by decide
theorem test_wf_edge_frame : (Instr.pscFrameEdge (edge 2592000)).wellFormed = false := by decide
theorem test_wf_edge_state : (Instr.pchFrameEdge { edge 5 with state := .stopped }).wellFormed = false := by decide
theorem test_wf_edge_resume_jump :
    (Instr.pscFrameEdge { edge 5 with resume := true, inSpeed := false, jump := true }).wellFormed = false := by decide
theorem test_wf_edge_resume_speed : (Instr.pscFrameEdge { edge 5 with resume := true }).wellFormed = false := by decide
theorem test_wf_edge_resume_state :
    (Instr.pscFrameEdge { edge 5 with resume := true, inSpeed := false, state := .freewheel }).wellFormed = false := by decide
theorem test_wf_request_loop : (Instr.stageRequest ⟨0, 0, .punchIn, 1, 9⟩).wellFormed = false := by decide
theorem test_wf_request_target : (Instr.stageRequest ⟨0, 1, .punchIn, 1, 2592000⟩).wellFormed = false := by decide
theorem test_wf_request_lines : (Instr.stageRequest ⟨0, 1, .punchOut, 1, 9⟩).wellFormed = false := by decide
theorem test_wf_report_loop : (Instr.punchReport ⟨0, 10000, .punchIn, 1⟩).wellFormed = false := by decide
theorem test_wf_release_loop : (Instr.release 0 0).wellFormed = false := by decide
theorem test_wf_ciu_tick : (Instr.ciuTick 207360000 .forward).wellFormed = false := by decide
theorem test_wf_vgt_tick : (Instr.vgtTick 207360000 .forward).wellFormed = false := by decide
theorem test_wf_handover_start : (Instr.entryHandover 0 2592000).wellFormed = false := by decide
theorem test_wf_lanes_frame : (Instr.laneReport ⟨2592000, .locked, []⟩).wellFormed = false := by decide
theorem test_wf_lanes_state : (Instr.laneReport ⟨5, .unknown, []⟩).wellFormed = false := by decide
theorem test_wf_lanes_order : (Instr.laneReport ⟨5, .locked, [(1, .lead), (0, .lead)]⟩).wellFormed = false := by decide
theorem test_wf_onset_onset : (Instr.onsetReport 207360000 0 0).wellFormed = false := by decide
theorem test_wf_onset_qualifying : (Instr.onsetReport 0 207360000 0).wellFormed = false := by decide
theorem test_wf_onset_allowance : (Instr.onsetReport 0 0 49).wellFormed = false := by decide

/-- Largest values of each range are well formed, and so is any command of the controller. -/
theorem test_wf_accepts :
    ([.ltcFrame (ltc 1 2 10 0), .pscFrameEdge (edge 2591999),
      .pscFrameEdge { edge 5 with resume := true, inSpeed := false }, .stageRequest ⟨3, 9999, .punchOut, 0, 2591999⟩,
      .ciuTick 207359999 .reverse, .laneReport ⟨5, .freewheel, [(0, .lead), (3, .tail)]⟩, .onsetReport 0 207359999 48,
      .setRate 255] : List Instr).all Instr.wellFormed = true := by decide

/-! ## Labels, frame numbers and speeds (Tables 4-2 and 4-3, the example of Section 4.3) -/

theorem test_label_to_frame :
    (⟨1, 2, 10, 0⟩ : Label).frame .fps24 = some 89520 ∧ (⟨10, 0, 0, 0⟩ : Label).frame .fps25 = some 900000
      ∧ (⟨0, 1, 0, 2⟩ : Label).frame .fps30 = some 1802 ∧ (⟨0, 0, 59, 29⟩ : Label).frame .drop30 = some 1799
      ∧ (⟨0, 1, 0, 2⟩ : Label).frame .drop30 = some 1800 ∧ (⟨0, 10, 0, 0⟩ : Label).frame .drop30 = some 17982
      ∧ (⟨1, 10, 0, 2⟩ : Label).frame .drop30 = some 125876 ∧ (⟨23, 59, 59, 29⟩ : Label).frame .drop30 = some 2589407 := by
  decide

theorem test_frame_to_label :
    labelOf .drop30 1800 = ⟨0, 1, 0, 2⟩ ∧ labelOf .drop30 17982 = ⟨0, 10, 0, 0⟩
      ∧ labelOf .drop30 125876 = ⟨1, 10, 0, 2⟩ ∧ labelOf .drop30 2589407 = ⟨23, 59, 59, 29⟩ := by decide

theorem test_labels_refused :
    (⟨0, 1, 0, 0⟩ : Label).frame .drop30 = none ∧ (⟨0, 1, 0, 0⟩ : Label).frame .fps30 = some 1800
      ∧ (⟨24, 0, 0, 0⟩ : Label).frame .fps24 = none ∧ (⟨0, 60, 0, 0⟩ : Label).frame .fps24 = none
      ∧ (⟨0, 0, 0, 24⟩ : Label).frame .fps24 = none ∧ (⟨0, 0, 0, 25⟩ : Label).frame .fps25 = none := by decide

theorem test_speeds :
    speedOf .fps24 528384 = 969 ∧ speedOf .fps24 512000 = 1000 ∧ speedOf .fps24 409600 = 1250 := by decide

/-! ## Bytes (the examples of Sections 10.3 and 10.4) -/

theorem test_bytes_of_shift : bodyOf (.reelShift 48) = [0x24, 0, 0, 0, 0x30]
    ∧ bodyOf (.reelShift (-48)) = [0x24, 0xFF, 0xFF, 0xFF, 0xD0] := by decide

theorem test_bytes_of_take :
    ({ take 7 .complete true with lines := 0x03, offset := some 100 } : Take).bytes = [0x87, 0x21, 0x03, 0, 0, 0x64] := by
  decide

theorem test_bytes_of_descriptor :
    ({ frame := 89520, state := .locked,
       lanes := [⟨0, 7, 2, .line, none, none, true, true⟩, ⟨1, 9, 5, .lead, some 0, some 1, false, false⟩] } :
      Descriptor).bytes
      = [0xA7, 0x01, 0x5D, 0xB0, 0x01, 0x02, 0x34, 0x07, 0x02, 0xFF, 0xFF, 0x01, 0x09, 0x15, 0x00, 0x00, 0x95] := by decide

/-! ## Resets and commands of the link -/

/-- R147: a cold reset with GUARD low leaves the unit GUARDED. -/
theorem test_cold_reset_guard_low :
    (after .coldReset { stage 89520 [] [] with board := { guardHigh := false, resetLow := false } }).pch.unit = .guarded := by
  decide

/-- R24, R164: the OPEN take is ABORTED with the lines its context held, and the cue is ARMED again. -/
theorem test_warm_reset_aborts_take :
    let s := (passing 89550 .line).modCue 1 0 (Cue.addTake false)
    let s := s.setCtx 0 (some { serving 0 31 .line vals31 with take := some 1, held := 0x03 })
    ((after (.warmReset true) s).cue 1 0).map (fun c => (c.state, c.nextTake, c.takes))
      = some (.armed .record, 2, [{ take 1 .aborted false with lines := 0x03 }]) := by decide

/-- The reel of Table 3-4 after two steps of its shift. -/
def Sys2Proof.Tests.shifting (state : ReelState) : State :=
  let c (loop i o : Nat) (st : CueState) (flag : Bool) : Cue :=
    { cue loop (vals i o 0 6 0 23 0 0 0) st with conformPending := flag }
  let s := State.reset.modReel 3 fun _ =>
    { reel [(0, c 101 89568 89652 .ready false), (1, c 102 89432 89492 (.armed .record) false),
            (2, c 103 89640 89688 .ready true), (3, c 104 89520 89562 .done true)] [1, 0, 3, 2] with
      state := state, earliest := some 89384, latest := some 89688, conform := some { op := .shift, delta := 48, cursor := 2 } }
  { s with cst := { s.cst with editReel := 3 } }

/-- The operation in hand of Table 3-4 after two steps. -/
def Sys2Proof.Tests.shiftInHand : Operation := { op := .shift, target := 3, delta := 48, cursor := 2 }

/-- Table 3-4, the row of the warm reset: PARTIAL with cursor 2. -/
theorem test_warm_reset_breaks_shift :
    let t := after (.warmReset true) { shifting .conforming with cfu := some shiftInHand }
    (t.reel 3).state = .partly ∧ (t.reel 3).conform = some { op := .shift, delta := 48, cursor := 2 } ∧ t.cfu = none := by
  decide

/-- The STATUS exchange of Section 10.3, byte for byte. -/
theorem test_status_frame :
    let c := serving 0 31 .lead vals31
    let s := ((stage 89520 [] []).setCtx 0 (some c)).setCtx 2 (some c)
    frameBytes (bodyOf .status) = [0xD5, 0x01, 0x01, 0xFE]
      ∧ (after .status s).linkTx = [0xD5, 0x09, 0x81, 0x00, 0x01, 0x00, 0x01, 0x00, 0xFF, 0x05, 0x00, 0x70] := by decide

/-- R176: the overrun flag is answered set, and then clear. -/
theorem test_status_clears_overrun :
    let t := after .status { State.reset with lnk := { Link.reset with overrun := true } }
    t.lnk.overrun = false ∧ t.lastAnswer.map (fun a => a.body.getLast?) = some (some 1) := by decide

/-- R177, R183: RESTART is answered DONE, kind 82H. -/
theorem test_restart_answer : (after .restart State.reset).linkTx = [0xD5, 0x02, 0x82, 0x00, 0x7C] := by decide

/-! ## Position commands -/

/-- R64, Table 10-4: code 3 is 30 fps drop-frame; the position becomes UNKNOWN. -/
theorem test_set_rate_drop :
    let t := after (.setRate 3) { State.reset with pos := { Pos.reset with state := .stopped, n := 5 } }
    t.pos = { Pos.reset with rate := .drop30 } ∧ t.raised = stateEvents .unknown .forward := by decide

/-- R64: a reel that is not EMPTY refuses the command. -/
theorem test_set_rate_reel_not_empty : answerTo (.setRate 0) (stage 5 [] []) = some .reelNotEmpty := by decide

/-- R80: 31 is stored as 30. -/
theorem test_set_freewheel_clamped :
    (after (.setFreewheel 31) State.reset).pos.limit = 30 ∧ answerTo (.setFreewheel 31) State.reset = some .adjusted
      ∧ answerTo (.setFreewheel 30) State.reset = some .done := by decide

/-- The POSITION_READ after Table 4-5: STOPPED, 10:00:08:03, tick 0, speed 0. -/
theorem test_position_read_stopped :
    (after .positionRead { State.reset with pos := { Pos.reset with rate := .fps25, state := .stopped, n := 900203 } }
      ).lastAnswer.map (fun a => a.data)
      = some (.position ⟨.stopped, .forward, 0, false, ⟨10, 0, 8, 3⟩, 0⟩) := by decide

/-! ## Voice, flash, punch and pass commands -/

/-- R162: a qualify length of 0 becomes 1 and an allowance above 48 becomes 48. -/
theorem test_set_voice_clamped :
    let t := after (.setVoice 0 49) State.reset
    (t.vgt.qualify, t.vgt.allowance) = (1, 48) ∧ answerTo (.setVoice 0 49) State.reset = some .adjusted := by decide

/-- R125: 0 becomes 1 and 4 becomes 3. -/
theorem test_set_flash_clamped :
    (after (.setFlash 0) State.reset).ovl.flash = 1 ∧ (after (.setFlash 4) State.reset).ovl.flash = 3 := by decide

/-- R130, R131: an active-low line that is out is driven high. -/
theorem test_set_lines_polarity :
    let t := after (.setLines 0xC0 0x01) State.reset
    t.punchOut 0 = true ∧ t.punchOut 1 = false ∧ (t.pch.lines[5].mode, t.pch.lines[6].mode) = (.cue, .manual) := by decide

/-- R131: a line that a context owns keeps its mode. -/
theorem test_set_lines_busy :
    let s := stage 89520 [] []
    answerTo (.setLines 0x01 0) { s with pch := s.pch.give (.context 0) 0x01 } = some .lineBusy := by decide

/-- R139: away from running code the lines move at once. -/
theorem test_punch_manual_at_once :
    (after (.punchManual 0x80 1) State.reset).pch.lines[7] = { Line.reset with owner := .manual, isIn := true } := by decide

/-- R139: a line in CUE mode refuses the command. -/
theorem test_punch_manual_not_manual : answerTo (.punchManual 0xA0 1) (stage 5 [] []) = some .notManual := by decide

/-- R146, and the last row of Table 7-3. -/
theorem test_guard_release :
    let s : State := { State.reset with pch := { Pch.reset with unit := .guarded } }
    (after .guardRelease s).pch.unit = .normal
      ∧ answerTo .guardRelease { s with board := { s.board with guardHigh := false } } = some .guardActive := by decide

/-- R105, R106: a pass aborted in its LEAD leaves the cue ARMED, and the answer carries the context. -/
theorem test_pass_abort_in_lead :
    let t := after (.passAbort 0xFF) (passing 89460 .lead)
    (t.cue 1 0).map (fun c => c.state) = some (.armed .record) ∧ t.ctx 0 = none
      ∧ t.lastAnswer.map (fun a => a.data) = some (.aborted 0x01) ∧ t.raised = [.release 0 31, .freeHandover 0] := by decide

/-- R106: 4 is no context. -/
theorem test_pass_abort_bad_field : answerTo (.passAbort 4) (passing 89460 .lead) = some .badField := by decide

/-! ## Reels -/

/-- Table 1-3: play 4 while a context is ACTIVE is answered PENDING, and play 0 then removes it. -/
theorem test_select_play_pending :
    let s := passing 89460 .lead
    let t := after (.reelSelectPlay 4) s
    answerTo (.reelSelectPlay 4) s = some .pending ∧ t.cst.pendingPlay = some 4
      ∧ (after (.reelSelectPlay 1) { s with cst := { s.cst with pendingPlay := some 4 } }).cst.pendingPlay = none := by decide

/-- R6: with every context FREE the selector changes at once and REEL_SWITCHED is raised. -/
theorem test_select_play_at_once :
    let t := after (.reelSelectPlay 6) (sending (stage 5 [] []))
    t.cst.playReel = 6 ∧ t.psc.refind = true ∧ t.lnk.noticesHeld = [.reelSwitched 6] := by decide

/-- R5, R1: reel 7 is selected, and there is no reel 8. -/
theorem test_select_edit :
    (after (.reelSelectEdit 7) State.reset).cst.editReel = 7 ∧ answerTo (.reelSelectEdit 8) State.reset = some .badField := by
  decide

/-- R3: the tag of the named reel alone. R182: form 3 is refused, and it is read from the body. -/
theorem test_select_tag :
    let t := after (.reelSelectTag 2 0x1234) State.reset
    ((t.reel 2).tag, (t.reel 0).tag) = (0x1234, 0) ∧ answerTo (.reelSelectTag 2 0x1234) State.reset = some .done
      ∧ commandOf [0x20, 0x03, 0x02, 0x12, 0x34] = some (.reelSelectTag 2 0x1234 (some 0))
      ∧ answerTo (.reelSelectTag 2 0x1234 (some 0)) State.reset = some .badField := by decide

/-- The REEL_INFO of Table 3-4 while the reel is PARTIAL. -/
theorem test_reel_info_partial :
    (after (.reelInfo 3) (shifting .partly)).lastAnswer.map (fun a => a.data)
      = some (.reel { reel := 3, tag := 0, state := .partly, count := 4, earliest := some ⟨1, 2, 4, 8⟩,
                      latest := some ⟨1, 2, 17, 0⟩, conform := some { op := .shift, delta := 48, cursor := 2 },
                      isPlay := false, isEdit := true, isPending := false }) := by decide

/-- R60: clearing a PARTIAL copy destination releases its source and keeps its own tag. -/
theorem test_reel_clear_releases_source :
    let s := (stage 5 [] []).modReel 1 fun r =>
      { r with tag := 9, state := .partly, conform := some { op := .copy 2, delta := 0, cursor := 0 } }
    let t := after .reelClear (s.modReel 2 fun r => { r with state := .locked })
    ((t.reel 1).state, (t.reel 1).tag, (t.reel 2).state) = (.empty, 9, .opened) := by decide

/-- R60: a PASSING cue keeps the reel. -/
theorem test_reel_clear_pass_active : answerTo .reelClear (passing 89460 .lead) = some .passActive := by decide

/-- The example of Section 3.2: an earliest in-point of 120 refuses a delta of −200, and −120 passes. -/
theorem test_reel_shift_bound :
    let s := stage 5 [(0, cue 1 (vals 120 200 0 6 0 23 0 0 0) .ready)] [0]
    answerTo (.reelShift (-200)) s = some .outOfDay ∧ answerTo (.reelShift (-120)) s = some .pending := by decide

/-- R49: every cue is marked and the record starts at cursor 0. -/
theorem test_reel_shift_starts :
    let t := after (.reelShift 48) (stage 5 [(0, cue 1 (vals 120 200 0 6 0 23 0 0 0) .ready)] [0])
    (t.cue 1 0).map (fun c => (c.conformPending, c.vals.inPt)) = some (true, 120)
      ∧ (t.reel 1).conform = some { op := .shift, delta := 48, cursor := 0 } ∧ t.psc.refind = true := by decide

/-- R52: source and destination differ. -/
theorem test_reel_copy_same_reel : answerTo (.reelCopy 1 1 0) (stage 5 [] []) = some .badField := by decide

/-- R53: the source is LOCKED and the destination CONFORMING with delta −48. -/
theorem test_reel_copy_starts :
    let t := after (.reelCopy 1 2 (-48)) (stage 5 [(0, cue 1 (vals 120 200 0 6 0 23 0 0 0) .ready)] [0])
    ((t.reel 1).state, (t.reel 2).state) = (.locked, .conforming)
      ∧ t.cfu = some { op := .copy 1, target := 2, delta := -48, cursor := 0 } := by decide

/-- Table 3-4, the row of REEL_RESUME. -/
theorem test_reel_resume :
    let t := after .reelResume (shifting .partly)
    (t.reel 3).state = .conforming ∧ t.cfu = some shiftInHand ∧ answerTo .reelResume (shifting .partly) = some .pending := by
  decide

/-- R59: only a PARTIAL reel is resumed. -/
theorem test_reel_resume_bad_field : answerTo .reelResume (stage 5 [] []) = some .badField := by decide

/-! ## Cues -/

/-- The CUE_WRITE of Table 2-3. -/
def Sys2Proof.Tests.write40 : CueFields :=
  { inPt := ⟨1, 5, 0, 0⟩, outPt := ⟨1, 5, 2, 0⟩, char := 3, beeps := 6, spacing := 4, onTime := 900, tone := 10,
    streamer := 5, colour := 9, tail := 300, lines := 0x0C, mode := 0 }

/-- Table 2-3: what loop 40 stores, and the answer ADJUSTED. -/
theorem test_cue_write_clamps :
    let t := after (.cueWrite 40 write40) (stage 5 [] [])
    t.cue 1 0 = some (newCue 40 { inPt := 93600, outPt := 93648, char := 3, beeps := 4, spacing := 6, onTime := 480, tone := 23,
                                  streamer := 12, colour := 7, tail := 240, lines := 0x0C, mode := .once })
      ∧ answerTo (.cueWrite 40 write40) (stage 5 [] []) = some .adjusted := by decide

/-- The two cues of Table 1-4 that stand before loop 15 is written. -/
def Sys2Proof.Tests.written (more : List (Nat × Cue)) (order : List Nat) : State :=
  stage 5 ([(0, cue 14 (vals 89520 89604 0 6 0 23 0 0 0) .ready), (1, cue 12 (vals 89384 89444 0 6 0 23 0 0 0) .ready)] ++ more)
    order

/-- Loop 15 of Table 1-4. -/
def Sys2Proof.Tests.loop15 : Nat × Cue := (2, cue 15 (vals 89520 89562 0 6 0 23 0 0 0) .ready)

/-- Table 1-5, the row of CUE_WRITE loop 15: an equal in-point stands behind the lower loop number. -/
theorem test_cue_write_order :
    let f := { write40 with inPt := ⟨1, 2, 10, 0⟩, outPt := ⟨1, 2, 11, 18⟩ }
    let t := after (.cueWrite 15 f) (written [] [1, 0])
    (t.reel 1).order = [1, 0, 2] ∧ (t.reel 1).earliest = some 89384 ∧ (t.reel 1).latest = some 89604
      ∧ answerTo (.cueWrite 12 f) (written [] [1, 0]) = some .duplicateLoop := by decide

/-- An amend that names nothing. -/
def Sys2Proof.Tests.amendNone : AmendFields :=
  ⟨none, none, none, none, none, none, none, none, none, none, none, none⟩

/-- Table 1-5, the row of CUE_AMEND. -/
theorem test_cue_amend_moves :
    let t := after (.cueAmend 15 0 { amendNone with inPt := some ⟨1, 2, 8, 12⟩ }) (written [loop15] [1, 0, 2])
    (t.reel 1).order = [1, 2, 0] ∧ (t.cue 1 2).map (fun c => c.vals.inPt) = some 89484 := by decide

/-- Table 2-4: on a PASSING cue with a pending spacing of 30 an on-time of 3000 is merged as 2400. -/
theorem test_cue_amend_pending :
    let e := { EditVals.none with tail := some 20, inPt := some 89556, spacing := some 30 }
    let s := (passing 89460 .lead).modCue 1 0 fun c => { c with pending := some ⟨e, false⟩ }
    let i := Instr.cueAmend 31 0 { amendNone with onTime := some 3000 }
    ((after i s).cue 1 0).bind (fun c => c.pending) = some ⟨{ e with onTime := some 2400 }, false⟩
      ∧ answerTo i s = some .pending := by decide

/-- Table 1-5, the row of CUE_RETIRE loop 12. -/
theorem test_cue_retire :
    let t := after (.cueRetire 12) (written [loop15] [1, 2, 0])
    (t.reel 1).order = [2, 0] ∧ t.cue 1 1 = none ∧ (t.reel 1).count = 2 := by decide

/-- R41: retiring a PASSING cue ends its pass without a take. -/
theorem test_cue_retire_passing :
    let t := after (.cueRetire 31) (sending (passing 89460 .lead))
    t.ctx 0 = none ∧ (t.reel 1).state = .empty
      ∧ t.lnk.noticesHeld = [.passEnd 0 1 31 (.aborted .retired) .lead none] := by decide

/-- R20: the record as it stands. -/
theorem test_cue_read :
    (after (.cueRead 15) (written [loop15] [1, 0, 2])).lastAnswer.map (fun a => a.data) = some (.cue .fps24 loop15.2)
      ∧ answerTo (.cueRead 16) (written [] [1, 0]) = some .noSuchCue := by decide

/-- The CUE_NEXT of Table 3-4: for 01:02:12:00 it answers loop 101. -/
theorem test_cue_next :
    ((after (.cueNext ⟨1, 2, 12, 0⟩) (shifting .partly)).lastAnswer.bind fun a => match a.data with
      | .cue _ c => some c.loop
      | .nothing | .status _ | .position _ | .aborted _ | .reel _ => none) = some 101 := by decide

/-- R42: RECORD wants a line, REHEARSE does not. -/
theorem test_cue_arm :
    answerTo (.cueArm 15 1) (written [loop15] [1, 0, 2]) = some .noLines
      ∧ ((after (.cueArm 15 0) (written [loop15] [1, 0, 2])).cue 1 2).map (fun c => c.state) = some (.armed .rehearse) := by
  decide

/-- Table 3-4, the row of CUE_ARM. -/
theorem test_cue_arm_partial : answerTo (.cueArm 104 0) (shifting .partly) = some .reelPartial := by decide

/-- Table 2-4, the row of CUE_DISARM. -/
theorem test_cue_disarm_passing :
    ((after (.cueDisarm 31) (passing 89460 .lead)).cue 1 0).bind (fun c => c.pending) = some ⟨EditVals.none, true⟩
      ∧ answerTo (.cueDisarm 31) (passing 89460 .lead) = some .pending := by decide

/-- R45: 1 protects, and 2 is no value. -/
theorem test_cue_protect :
    ((after (.cueProtect 31 1) (passing 89460 .lead)).cue 1 0).map (fun c => c.protect) = some true
      ∧ answerTo (.cueProtect 31 2) (passing 89460 .lead) = some .badField := by decide

/-! ## Takes -/

/-- Loop 501 with the takes of Table 8-4, or those its pass left. -/
def Sys2Proof.Tests.loop501 (state : CueState) (takes : List Take) (next : Nat) : Cue :=
  { cue 501 vals31 state with takes := takes, nextTake := next }

/-- The takes of Table 8-4 from take 2 on. -/
def Sys2Proof.Tests.takes2to6 : List Take :=
  [take 2 .complete true, take 3 .partialLines false, take 4 .aborted false, take 5 .complete true, take 6 .complete false]

/-- Table 8-5, the row of TAKE_CIRCLE. -/
theorem test_take_circle :
    let s := stage 89700 [(0, loop501 .done (takes2to6 ++ [take 7 .complete false]) 8)] [0]
    ((after (.takeCircle 501 7 1) s).cue 1 0).map (fun c => c.takes) = some (takes2to6 ++ [take 7 .complete true]) := by
  decide

/-- R155: an OPEN take is not circled. -/
theorem test_take_circle_open :
    answerTo (.takeCircle 501 7 1) (stage 89530 [(0, loop501 (.passing .record) [take 7 .opened false] 8)] [0])
      = some .passActive := by decide

/-- Table 8-5, the row of TAKE_RETIRE; a take that is held leaves with its number. -/
theorem test_take_retire :
    let s := stage 89700 [(0, loop501 .done takes2to6 8)] [0]
    answerTo (.takeRetire 501 1) s = some .noSuchTake
      ∧ ((after (.takeRetire 501 2) s).cue 1 0).map (fun c => (c.takes.length, c.nextTake)) = some (4, 8) := by decide

/-! ## The link -/

/-- R166: the start byte, and a length above 64. -/
theorem test_rx_start_and_length :
    (after (.rxByte 0xD5 false) State.reset).lnk.rx = .length
      ∧ (after (.rxByte 65 false) { State.reset with lnk := { Link.reset with rx := .length } }).lnk.rx = .hunting
      ∧ (after (.rxByte 64 false) { State.reset with lnk := { Link.reset with rx := .length } }).lnk.rx = .body 64 [] := by
  decide

/-- R168, R171: the check byte of STATUS makes it held; a wrong one is answered LINK_ERROR with the null kind. -/
theorem test_rx_check :
    let s : State := { State.reset with lnk := { Link.reset with rx := .check 1 [0x01] } }
    (after (.rxByte 0xFE false) s).lnk.held = some { body := [0x01], taken := false }
      ∧ (after (.rxByte 0xFF false) s).linkTx = [0xD5, 0x03, 0x80, 0x10, 0x00, 0x6D] := by decide

/-- The first event of Table 9-3: the gap drops the message. -/
theorem test_gap_timer :
    (after .gapTimerExpiry { State.reset with lnk := { Link.reset with rx := .body 1 [] } }).lnk = Link.reset := by decide

/-- Table 9-3, the end of the CUE_READ answer: no command is held, and OVERRUN goes before PASS_BEGIN. -/
theorem test_tx_end_prefers_answers :
    let l : Link := { Link.reset with
      held := some ⟨[0x2B, 0, 207], true⟩, wire := some (.answer ⟨0x2B, .noSuchCue, .nothing⟩),
      answers := [.link ⟨.overrun, 0x2D⟩], notices := [.takesFull 1] }
    (after .txMessageEnd { State.reset with lnk := l }).lnk
      = { Link.reset with wire := some (.linkAnswer ⟨.overrun, 0x2D⟩), notices := [.takesFull 1] } := by decide

/-- R177: the warm reset follows the end of the RESTART answer. -/
theorem test_tx_end_restarts :
    let s := passing 89460 .lead
    (after .txMessageEnd { s with lnk := { s.lnk with wire := some (.answer ⟨0x02, .done, .nothing⟩) } }).ctx 0 = none := by
  decide

/-! ## The position -/

/-- R71, R187, Table 4-2: 01:02:10:00 locks the position at 89,520, with the resume mark and not IN_SPEED. -/
theorem test_ltc_locks :
    let t := after (.ltcFrame (ltc 1 2 10 0)) State.reset
    t.pos = { locked 89520 with mark := false }
      ∧ t.raised = stateEvents .locked .forward ++ edgeEvents { edge 89520 with inSpeed := false, resume := true } 0 := by decide

/-- R72, Table 4-5: the frame after the one before is no jump; P is measured. -/
theorem test_ltc_continues :
    let t := after (.ltcFrame { ltc 1 2 10 0 with gap := 528384 }) { State.reset with pos := { locked 89519 with mark := false } }
    t.raised = edgeEvents { edge 89520 with speed := 969 } 0 := by decide

/-- Table 4-5, the watch timer after 900,001. -/
theorem test_watch_timer :
    let p := { locked 900001 with rate := .fps25, limit := 3, period := some 491520 }
    let t := after .watchTimerExpiry { State.reset with pos := p }
    t.pos = { p with state := .freewheel, n := 900002, count := 1 } ∧ p.watchTimer = some 552960
      ∧ t.pos.tickInterval = some 6144 := by decide

/-- Table 4-5's text: with the count at the limit the position stops at 900,203. -/
theorem test_freewheel_timer_stops :
    let p := { locked 900203 with rate := .fps25, limit := 3, period := some 491520, state := .freewheel, count := 3 }
    let t := after .freewheelTimerExpiry { State.reset with pos := p }
    (t.pos.state, t.pos.n, t.pos.b, t.pos.speed) = (.stopped, 900203, 0, 0)
      ∧ t.lnk.noticesHeld = [.position .stopped .forward] := by decide

/-- The example of Section 4.5: the last tick of 89,520 is 7,161,679. -/
theorem test_pos_tick :
    let at' (b : Nat) : State := { State.reset with pos := { locked 89520 with b := b } }
    (after .posTick (at' 78)).raised = [.ciuTick 7161679 .forward, .vgtTick 7161679 .forward]
      ∧ after .posTick (at' 79) = at' 79 := by decide

/-! ## Passes -/

/-- Table 8-5, the staging edge of loop 501: take 1 leaves, take 7 joins OPEN, and the punch-in is staged. -/
theorem test_edge_stages_take :
    let s := (stage 89518 [(0, loop501 (.passing .record) (take 1 .complete false :: takes2to6) 7)] [0]).setCtx 0
      (some (serving 0 501 .lead vals31))
    let t := after (.pscFrameEdge (edge 89519)) s
    (t.cue 1 0).map (fun c => (c.takes, c.nextTake)) = some (takes2to6 ++ [take 7 .opened false], 8)
      ∧ t.raised = [.stageRequest ⟨0, 501, .punchIn, 0x03, 89520⟩, .laneReport ⟨89519, .locked, [(0, .lead)]⟩] := by decide

/-- Table 5-4, the edge of 89,448: loop 201 enters context 0, not late. -/
theorem test_edge_enters :
    let s := stage 89447 [(0, cue 201 vals31 (.armed .record))] [0]
    let t := after (.pscFrameEdge (edge 89448)) s
    t.ctx 0 = some (serving 0 201 .lead vals31) ∧ t.lnk.noticesHeld = [.passBegin 0 1 201 7 .record false]
      ∧ (after (.pscFrameEdge (edge 89447)) s).ctx 0 = none := by decide

/-- R103: a state event into STOPPED aborts every pass. -/
theorem test_psc_state_event :
    let t := after (.pscStateEvent .stopped .forward) (passing 89530 .line)
    t.ctx 0 = none ∧ t.lnk.noticesHeld = [.passEnd 0 1 31 (.aborted .stopped) .line none] := by decide

/-- Table 7-3, the report of the edge of 89,520; a report for another loop changes nothing. -/
theorem test_punch_report :
    let s := passing 89520 .line
    ((after (.punchReport ⟨0, 31, .punchIn, 0x03⟩) s).ctx 0).map (fun c => (c.granted, c.held)) = some (0x03, 0x03)
      ∧ after (.punchReport ⟨0, 32, .punchIn, 0x03⟩) s = s := by decide

/-- R144, Table 7-4: the OPEN take is marked and the held set emptied. -/
theorem test_guard_report :
    let s := (passing 89550 .line).modCue 1 0 (Cue.addTake false)
    let t := after .guardReport (s.setCtx 0 (some { serving 0 31 .line vals31 with take := some 1, held := 0x03 }))
    (t.ctx 0).map (fun c => c.held) = some 0
      ∧ (t.cue 1 0).map (fun c => c.takes) = some [{ take 1 .opened false with guardTripped := true }] := by decide

/-! ## Punch lines -/

/-- The lines of Table 7-3 before the edge of 89,544. -/
def Sys2Proof.Tests.punched : State :=
  let s := stage 89543 [] []
  { s with pch := Pch.give .manual 0x80 (Pch.give (.context 0) 0x03 s.pch) }

/-- Table 7-3, the edge of 89,544: line 2 granted, line 1 refused. -/
theorem test_pch_edge_conflict :
    let t := after (.pchFrameEdge (edge 89544)) (punched.setStaged 1 (some ⟨402, .punchIn, 0x06, 89544⟩))
    (t.pch.lines[1].owner, t.pch.lines[2].owner) = (.context 0, .context 1) ∧ t.pch.staged[1] = none
      ∧ t.raised = [.punchReport ⟨1, 402, .punchIn, 0x04⟩] ∧ t.lnk.noticesHeld = [.punch (.context 1) 0x04 0 0x02] := by decide

/-- Table 7-3, the edge of 89,592 after the trip: a punch-out of no line is still reported. -/
theorem test_pch_edge_out_of_none :
    let s := stage 89591 [] []
    (after (.pchFrameEdge (edge 89592)) (s.setStaged 1 (some ⟨402, .punchOut, 0, 89592⟩))).lnk.noticesHeld
      = [.punch (.context 1) 0 0 0] := by decide

/-- Table 7-3: the request of context 1 is staged. -/
theorem test_stage_request :
    (after (.stageRequest ⟨1, 402, .punchIn, 0x06, 89544⟩) punched).pch.staged[1] = some ⟨402, .punchIn, 0x06, 89544⟩ := by
  decide

/-- R133: a request for the frame of the last edge is transferred at once. -/
theorem test_stage_request_late :
    let s : State := { punched with pch := { punched.pch with lastEdge := some 89544 } }
    (after (.stageRequest ⟨1, 402, .punchIn, 0x06, 89544⟩) s).pch.lines[2].owner = .context 1 := by decide

/-- R138: the lines of an aborted context go out. R133: a later request waits for the release. -/
theorem test_release :
    let t := after (.release 0 401) punched
    let r : StageRequest := ⟨0, 402, .punchIn, 0x04, 89600⟩
    let waits : State := { punched with raised := [.release 0 401, .stageRequest r] }
    t.pch.linesIn = 0x80 ∧ t.lnk.noticesHeld = [.punch (.context 0) 0 0x03 0] ∧ after (.stageRequest r) waits = waits
      ∧ (after (.stageRequest r) (after (.release 0 401) waits)).raised = [] := by decide

/-- R141: a staged manual punch-out is transferred when the position stops. -/
theorem test_pch_state_event :
    let s : State := { punched with pch := { punched.pch with manual := some ⟨0x80, .punchOut⟩ } }
    let t := after (.pchStateEvent .stopped .forward) s
    t.pch.linesIn = 0x03 ∧ t.pch.manual = none ∧ t.pch.view = .stopped := by decide

/-- Table 7-3, the row where GUARD falls. -/
theorem test_guard_trip :
    let t := after (.guardTrip .taken) { punched with pch := punched.pch.give (.context 1) 0x04 }
    t.pch.linesIn = 0 ∧ t.pch.unit = .guarded ∧ t.pch.lines[0].mode = .manual ∧ t.raised = [.guardReport]
      ∧ t.lnk.noticesHeld = [.guardTripped 0x87] := by decide

/-- R176: a line that has fallen before the unit takes the fall is answered low with the unit NORMAL; the trip follows. -/
theorem test_guard_falls_untaken :
    let t := after (.guardTrip .line) punched
    (after .status t).lastAnswer.map (fun a => a.data)
      = some (.status ⟨.locked, .normal, false, none, 0, false⟩)
      ∧ (after (.guardTrip .taken) t).pch.unit = .guarded ∧ (after (.guardTrip .taken) t).raised = [.guardReport] := by decide

/-- Table 7-3, the row where GUARD rises: the unit stays GUARDED. -/
theorem test_guard_rise :
    (after .guardRise (after (.guardTrip .taken) punched)).pch.unit = .guarded
      ∧ (after .guardRise (after (.guardTrip .taken) punched)).board.guardHigh = true := by decide

/-! ## Count-in and overlay -/

/-- The two passes of Section 6.2 in their LEAD. -/
def Sys2Proof.Tests.twoPasses (n : Nat) : State :=
  let s := stage n [(0, cue 301 vals31 (.passing .record)), (1, cue 302 vals302 (.passing .record))] [0, 1]
  let s := (s.setCtx 0 (some (serving 0 301 .lead vals31))).setCtx 1 (some (serving 1 302 .lead vals302))
  { s with ciu := { s.ciu with beats := #v[⟨some 89448, some vals31.countIn, none, false⟩,
                                           ⟨some 89496, some vals302.countIn, none, false⟩, Beat.reset, Beat.reset] } }

/-- Table 6-3, tick 7,159,680: both gates open, context 0 sounds with divider 47. -/
theorem test_tick_two_gates :
    let t := after (.ciuTick 7159680 .forward) (twoPasses 89496)
    (t.ciu.beats[0].gate, t.ciu.beats[1].gate) = (true, true)
      ∧ t.ciu.tone = { level := true, sounding := some 0, divider := 47, count := some 0 } := by decide

/-- Table 6-3: tick 7,159,839 is the last of context 0's third beep, and 7,161,600 is context 1's. -/
theorem test_tick_edges_of_gates :
    (after (.ciuTick 7159839 .forward) (twoPasses 89497)).ciu.tone.sounding = some 0
      ∧ (after (.ciuTick 7159840 .forward) (twoPasses 89498)).ciu.tone.sounding = none
      ∧ (after (.ciuTick 7161600 .forward) (twoPasses 89520)).ciu.tone.sounding = some 1
      ∧ (after (.ciuTick 7161680 .forward) (twoPasses 89521)).ciu.tone.sounding = none := by decide

/-- R110, R111: the hand-over of loop 301 at its entry edge finds the first beep open. -/
theorem test_entry_handover :
    let s := passing 89448 .lead
    let t := after (.entryHandover 0 89448) { s with ciu := { s.ciu with last := some (7155840, .forward) } }
    t.ciu.beats[0] = ⟨some 89448, some vals31.countIn, some 1, true⟩ ∧ t.toneOut = true := by decide

/-- R110, R116: the free hand-over of the sounding context takes TONE low. -/
theorem test_free_handover :
    let t := after (.freeHandover 0) (after (.ciuTick 7155840 .forward) (twoPasses 89448))
    t.ciu.beats[0] = Beat.reset ∧ t.toneOut = false ∧ t.ciu.tone.sounding = none := by decide

/-- R114: a half wave turns TONE. -/
theorem test_tone_half_wave :
    (after .toneHalfWave { State.reset with ciu := { Ciu.reset with tone := ⟨true, some 0, 47, some 20⟩ } }).ciu.tone
      = ⟨false, some 0, 47, some 0⟩ := by decide

/-- Table 6-5 and Section 10.4: the descriptor for frame 89,520 as OVL DATA carries it. -/
theorem test_lane_report :
    (after (.laneReport ⟨89520, .locked, [(0, .line), (1, .lead)]⟩) (twoPasses 89520)).ovlData
      = [0xA7, 0x01, 0x5D, 0xB0, 0x01, 0x02, 0x34, 0x07, 0x02, 0xFF, 0xFF, 0x01, 0x09, 0x15, 0x00, 0x00, 0x95] := by decide

/-- Table 6-4, frame 89,519: column 940 and digit 1. -/
theorem test_lane_report_streamer :
    ((after (.laneReport ⟨89519, .locked, [(0, .lead)]⟩) (twoPasses 89519)).ovl.wire.map fun d => d.lanes)
      = some [⟨0, 7, 2, .lead, some 940, some 1, false, false⟩] := by decide

/-- R119, R186: the descriptor of UNKNOWN carries frame 0 and no lane. -/
theorem test_ovl_state_event :
    (after (.ovlStateEvent .unknown .forward) (stage 89520 [] [])).ovlData = [0xA7, 0, 0, 0, 0, 0, 0] := by decide

/-- R126: the waiting descriptor follows the one sent. -/
theorem test_descriptor_sent :
    let d (n : Nat) : Descriptor := ⟨n, .locked, []⟩
    (after .descriptorSent { State.reset with ovl := ⟨1, false, some (d 1), some (d 2)⟩ }).ovl = ⟨1, false, some (d 2), none⟩ := by
  decide

/-! ## Voice -/

/-- R158: an edge sets the level alone. -/
theorem test_voice_edge : after (.voiceEdge true) State.reset = { State.reset with vgt := { Vgt.reset with level := true } } := by
  decide

/-- Table 8-5, tick 7,161,707: count 8 qualifies the run that began at 7,161,700. -/
theorem test_vgt_tick_qualifies :
    let v : Vgt := { Vgt.reset with
      level := true, last := some (7161706, .forward), run := .counting, start := some 7161700, count := 7 }
    let t := after (.vgtTick 7161707 .forward) { stage 89521 [] [] with vgt := v }
    t.vgt.run = .qualified ∧ t.vgt.count = 8 ∧ t.raised = [.onsetReport 7161700 7161707 12] := by decide

/-- R161: a state event into STOPPED ends the run. -/
theorem test_vgt_state_event :
    let v : Vgt := { Vgt.reset with last := some (9, .forward), run := .counting, start := some 5, count := 5 }
    (after (.vgtStateEvent .stopped .forward) { State.reset with vgt := v }).vgt = Vgt.reset := by decide

/-- Table 8-5: take 7 of loop 501 receives +100. -/
theorem test_onset_report :
    let s := (stage 89521 [(0, loop501 (.passing .record) [take 7 .opened false] 8)] [0]).setCtx 0
      (some { serving 0 501 .line vals31 with take := some 7 })
    ((after (.onsetReport 7161700 7161707 12) s).cue 1 0).map (fun c => c.takes)
      = some [{ take 7 .opened false with offset := some 100 }] := by decide

/-- The window of loop 501 in Section 8.5: 7,160,640 is its first tick and 7,168,319 its last. -/
theorem test_onset_window :
    let s := (stage 89521 [(0, loop501 (.passing .record) [take 7 .opened false] 8)] [0]).setCtx 0
      (some { serving 0 501 .line vals31 with take := some 7 })
    let offset (onset q : Nat) : Option (List (Option Int)) :=
      ((after (.onsetReport onset q 12) s).cue 1 0).map fun c => c.takes.map fun t => t.offset
    offset 7160639 7160639 = some [none] ∧ offset 7160630 7160640 = some [some (-960)]
      ∧ offset 7168319 7168319 = some [some 6719] ∧ offset 7168319 7168320 = some [none] := by decide

/-! ## Background work and RESET -/

/-- Table 3-4, the step after the resume: loop 104 moves to 89,568. -/
theorem test_shift_step :
    let t := after .shiftStep { shifting .conforming with cfu := some shiftInHand }
    (t.cue 3 3).map (fun c => (c.vals.inPt, c.vals.outPt, c.conformPending, c.state)) = some (89568, 89610, false, .done)
      ∧ t.cfu = some { shiftInHand with cursor := 3 } := by decide

/-- Table 3-4, the last step: CONFORM_DONE, and the points of Table 3-5's cues that have moved. -/
theorem test_shift_step_ends :
    let t := after .shiftStep { shifting .conforming with cfu := some { shiftInHand with cursor := 3 } }
    (t.reel 3).state = .opened ∧ (t.reel 3).conform = none ∧ (t.reel 3).latest = some 89736
      ∧ t.lnk.noticesHeld = [.conformDone 3 .shift] := by decide

/-- R54, R55: the one cue is copied READY with the delta added, and the copy ends. -/
theorem test_copy_step_ends :
    let s := after (.reelCopy 1 2 48) (stage 5 [(4, cue 1 (vals 120 200 0 6 0 23 0 0 0) .done)] [4])
    let t := after .copyStep s
    t.cue 2 0 = some (newCue 1 (vals 168 248 0 6 0 23 0 0 0)) ∧ (t.reel 2).order = [0]
      ∧ ((t.reel 1).state, (t.reel 2).state, t.cfu) = (.opened, .opened, none) := by decide

/-- R178: the link starts when RESET rises. -/
theorem test_reset_release :
    (after .resetRelease (after (.warmReset true) State.reset)).board.resetLow = false
      ∧ (after (.rxByte 0xD5 false) (after (.warmReset true) State.reset)).lnk.rx = .hunting := by decide

/-! ## The queue -/

/-- The command at the front is taken and the rest waits; an empty queue idles. -/
theorem test_step_queue :
    step { State.reset with pending := [.setFlash 2, .status] } = exec (.setFlash 2) { State.reset with pending := [.status] }
      ∧ step State.reset = .next State.reset := ⟨rfl, rfl⟩

/-! ## Hypotheses that are met

For each statement with hypotheses, or with clauses for cases of its inputs: states and operands that meet them, at the ends
of their ranges. -/

namespace Sys2Proof.Tests

/-- A slot of a reel's list of cues that is looked up stands in the list. -/
theorem mem_of_lookup {α : Type} {k : Nat} {v : α} : ∀ {l : List (Nat × α)}, l.lookup k = some v → (k, v) ∈ l
  | [], h => by simp at h
  | (a, b) :: l, h => by
    rw [List.lookup_cons] at h
    split at h
    · next hk => cases h; rw [eq_of_beq hk]; exact List.mem_cons_self
    · exact List.mem_cons_of_mem _ (mem_of_lookup h)

/-- The law of the contexts from checks that run over the contexts and the cues listed. -/
theorem lawful_of_checks (s : State)
    (h1 : ∀ k : Fin 4, (s.ctx k).all (fun c => decide (c.reel = s.cst.playReel)
      && (s.cue c.reel c.slot).any fun q => q.state.isPassing && decide (q.loop = c.loop)) = true)
    (h2 : ∀ j k : Fin 4, j ≠ k → (s.ctx j).all (fun c => (s.ctx k).all fun d => decide (c.slot ≠ d.slot)) = true)
    (h3 : ∀ r : Fin 8, ∀ p ∈ (s.reel r).cues, p.2.state.isPassing = true →
      ∃ k : Fin 4, (s.ctx k).any (fun c => decide (c.reel = r ∧ c.slot = p.1)) = true) : s.PassesLawful := by
  refine ⟨fun k c h => ?_, fun j k c d hj hk hs => ?_, fun r slot q hq hp => ?_⟩
  · have := h1 k
    simp only [h, Option.all_some, Bool.and_eq_true, decide_eq_true_eq, Option.any_eq_true] at this
    obtain ⟨hr, q, hq, hp, hl⟩ := this
    exact ⟨hr, q, hq, hp, hl⟩
  · by_contra hne
    have := h2 j k hne
    simp [hj, hk, hs] at this
  · obtain ⟨k, hk⟩ := h3 r (slot, q) (mem_of_lookup hq) hp
    obtain ⟨c, hc, hd⟩ := Option.any_eq_true _ _ |>.mp hk
    exact ⟨k, c, hc, of_decide_eq_true hd⟩

/-- Reel 5 waits as the pending play reel. -/
def waiting (s : State) : State := { s with cst := { s.cst with pendingPlay := some 5 } }

/-- The law of the reels from checks that run over the reels. -/
theorem reels_of_checks (s : State) (h1 : ∀ r : Fin 8, (s.reel r).kept s.pos.rate = true)
    (h2 : ∀ r x : Fin 8, (s.reel r).conform.all (fun c => decide (c.op ≠ .copy x) || (decide (x ≠ r)
      && decide ((s.reel x).state = .locked) && decide (c.cursor < (s.reel x).order.length)
      && ((s.reel x).cues.all fun p => p.2.vals.movesInDay s.pos.rate c.delta)
      && (s.reel r).cues.all fun p => ((s.reel x).order.take c.cursor).any fun slot => decide ((s.reel x).loopAt slot = p.2.loop)))
      = true)
    (h3 : ∀ r r' x : Fin 8, (s.reel r).conform.map (fun c => c.op) = some (.copy x) →
      (s.reel r').conform.map (fun c => c.op) = some (.copy x) → r = r')
    (h4 : ∀ x : Fin 8, (s.reel x).state = .locked → ∃ r : Fin 8, (s.reel r).conform.map (fun c => c.op) = some (.copy x))
    (h5 : ∀ r : Fin 8, (s.reel r).state = .conforming ↔ s.cfu.map (fun op => op.target) = some r)
    (h6 : s.cfu.all (fun op =>
      decide ((s.reel op.target).conform = some { op := op.op, delta := op.delta, cursor := op.cursor })) = true) :
    s.ReelsKept := by
  refine ⟨h1, fun r x c hc ho => ?_, fun r r' x c d hc hd ho hp => ?_, h4, h5, fun op ho => ?_⟩
  · have := h2 r x
    simp only [hc, Option.all_some, ho, ne_eq, not_true_eq_false, decide_false, Bool.false_or, Bool.and_eq_true,
      decide_eq_true_eq, List.all_eq_true, List.any_eq_true] at this
    obtain ⟨⟨⟨⟨a, b⟩, c⟩, d⟩, e⟩ := this
    exact ⟨a, b, c, d, e⟩
  · exact h3 r r' x (by simp [hc, ho]) (by simp [hd, hp])
  · simpa [ho] using h6

/-- The law of the frames of a pass from a check that runs over the contexts. -/
theorem frames_of_checks (s : State)
    (h : ∀ k : Fin 4, (s.ctx k).all (fun c => (s.cue c.reel c.slot).all fun q =>
      decide (c.entry = q.vals.inPt - max (q.vals.beeps * q.vals.spacing) (max q.vals.streamer 1)
        ∧ c.close = q.vals.outPt + q.vals.tail)) = true) : s.FramesKept := by
  intro k c q hc hq
  have := h k
  simp only [hc, hq, Option.all_some, decide_eq_true_eq] at this
  exact this

/-- The law of the pointer, and of the count-in values held, from checks on them. -/
theorem pointer_of_checks (s : State)
    (h : s.psc.pointer.all (fun p => s.psc.refind || decide (p ≤ s.playReel.order.length)) = true) : s.PointerKept := by
  intro p hp
  simpa [hp] using h

theorem beeps_of_checks (s : State) (h : ∀ k : Fin 4, s.ciu.beats[k].cue.all (fun c => decide (c.beeps ≤ 4)) = true) :
    s.BeepsKept := by
  intro k c hc
  have := h k
  rw [hc] at this
  simpa using this

/-- The law of OPEN takes from a check that runs over the takes. -/
theorem takes_of_checks (s : State)
    (h : ∀ r : Fin 8, ∀ p ∈ (s.reel r).cues, ∀ x ∈ p.2.takes, x.result = .opened → ∃ k : Fin 4,
      (s.ctx k).any (fun c => decide (c.reel = r ∧ c.slot = p.1 ∧ c.kind = .record ∧ c.take = some x.number)) = true) :
    s.TakesKept := by
  intro r slot q x hq hx ho
  obtain ⟨k, hk⟩ := h r (slot, q) (mem_of_lookup hq) x hx ho
  obtain ⟨c, hc, hd⟩ := Option.any_eq_true _ _ |>.mp hk
  exact ⟨k, c, hc, of_decide_eq_true hd⟩

/-- How an edge meets the passes from a check that runs over the contexts. -/
theorem met_of_checks (n : Nat) (s : State)
    (h : ∀ k : Fin 4, (s.ctx k).all (fun c => (s.cue c.reel c.slot).all fun q =>
      (decide (n + 1 ≠ q.vals.inPt) || decide (c.take = none))
      && ((q.takes.all fun x => decide (c.take ≠ some x.number) || decide (x.result ≠ .opened))
        || !c.closesOn s.pos.rate n || decide (n = q.vals.outPt))) = true) : s.MetInOrder n := by
  intro k c q hc hq
  have := h k
  simp only [hc, hq, Option.all_some, Bool.and_eq_true, Bool.or_eq_true, decide_eq_true_eq, List.all_eq_true,
    Bool.not_eq_true'] at this
  refine ⟨fun hn => this.1.resolve_left (fun e => e hn), fun ⟨x, hx, hm, ho⟩ hcl => ?_⟩
  rcases this.2 with (h | h) | h
  · exact absurd (h x hx) (by simp [hm, ho])
  · simp [hcl] at h
  · exact h

/-- Loop 31 in its LINE with its take OPEN. -/
def taking : State :=
  ((passing 89550 .line).modCue 1 0 (Cue.addTake false)).setCtx 0 (some { serving 0 31 .line vals31 with take := some 1 })

/-- Loop 31 in its LEAD: the stores and contexts are lawful. -/
theorem lead_lawful : (passing 89460 .lead).cst.lawful = true ∧ (passing 89460 .lead).PassesLawful :=
  ⟨by decide, lawful_of_checks _ (by decide) (by decide) (by decide)⟩

/-- Loop 31 in its LINE. -/
theorem line_lawful : (passing 89550 .line).cst.lawful = true ∧ (passing 89550 .line).PassesLawful :=
  ⟨by decide, lawful_of_checks _ (by decide) (by decide) (by decide)⟩

/-- Loop 31 in its TAIL. -/
theorem tail_lawful : (passing 89610 .tail).cst.lawful = true ∧ (passing 89610 .tail).PassesLawful :=
  ⟨by decide, lawful_of_checks _ (by decide) (by decide) (by decide)⟩

end Sys2Proof.Tests

/-! ### Resets and the link -/

/-- RESET low with a notice raised meanwhile, and RESET high. -/
theorem meets_WarmResetLeaves :
    let s := State.raise (.takesFull 1) (after (.warmReset true) State.reset)
    s.board.resetLow = true ∧ s.lnk.notices = [.takesFull 1] ∧ (after .resetRelease s).lnk = Link.reset
      ∧ (after (.warmReset false) State.reset).board.resetLow = false ∧ after .resetRelease State.reset = State.reset := by
  decide

/-- A PASSING cue, a slot without one, and a pending edit that moves a cue behind the next. -/
theorem meets_WarmResetSettlesCues :
    let edited := { cue 31 vals31 (.passing .record) with pending := some ⟨{ EditVals.none with inPt := some 89560 }, false⟩ }
    let s := stage 5 [(0, edited), (1, cue 32 vals302 .ready)] [0, 1]
    let t := after (.warmReset false) s
    (passing 89550 .line).cst.lawful = true ∧ ((passing 89550 .line).cue 1 0).isSome = true
      ∧ (passing 89550 .line).cue 1 1 = none ∧ State.reset.cst.lawful = true ∧ s.cst.lawful = true
      ∧ (t.reel 1).order = [1, 0] ∧ (t.reel 1).earliest = some 89544
      ∧ (s.reel 1).sorted = true ∧ (s.reel 1).loopsDistinct = true := by decide

/-- HUNTING; LENGTH with lengths 0, 1, 64 and 65; BODY before and at its last byte, of 1 and of 64 bytes; RESET low. -/
theorem meets_ReceiverFollowsItsStates :
    let rx (r : Rx) : State := { State.reset with lnk := { Link.reset with rx := r } }
    let next (b : Byte) (r : Rx) : Rx := (after (.rxByte b false) (rx r)).lnk.rx
    State.reset.board.resetLow = false
      ∧ next 0xD5 .hunting = .length ∧ next 0xD4 .hunting = .hunting
      ∧ next 0 .length = .hunting ∧ next 1 .length = .body 1 [] ∧ next 64 .length = .body 64 [] ∧ next 65 .length = .hunting
      ∧ next 0xD5 .length = .hunting
      ∧ next 9 (.body 1 []) = .check 1 [9] ∧ next 9 (.body 2 []) = .body 2 [9]
      ∧ next 9 (.body 64 (List.replicate 63 0)) = .check 64 (List.replicate 63 0 ++ [9])
      ∧ next 9 (.body 64 (List.replicate 62 0)) = .body 64 (List.replicate 62 0 ++ [9])
      ∧ (after (.warmReset true) State.reset).board.resetLow = true := by decide

/-- Each test of R168 decides on some message, with two and with three of the link's own answers waiting. -/
theorem meets_MessagesAreJudgedInOrder :
    let l (n : Nat) (held : Option Held) (len : Byte) (got : List Byte) : State := { State.reset with
      lnk := { Link.reset with
        rx := .check len got, held := held, answers := List.replicate n (.link ⟨.linkError, 0⟩), wire := some (.notice (.takesFull 1)) } }
    let own (check : Byte) (s : State) : Option Place := (after (.rxByte check false) s).lnk.answers.getLast?
    isCommandKind 0x80 = false ∧ isCommandKind 0xFF = false
      ∧ own 0 (l 2 none 1 [0x01]) = some (.link ⟨.linkError, 0⟩)
      ∧ own 0xFE (l 2 (some ⟨[0x01], true⟩) 1 [0x01]) = some (.link ⟨.overrun, 0x01⟩)
      ∧ own 0x80 (l 2 none 1 [0x7F]) = some (.link ⟨.unknownKind, 0x7F⟩)
      ∧ own 0xF7 (l 2 none 1 [0x08]) = some (.link ⟨.badLength, 0x08⟩)
      ∧ own 0xFE (l 3 none 1 [0x01]) = some (.owner none)
      ∧ own 0xDA (l 3 none 3 [0x20, 0x03, 0x00]) = some (.owner none)
      ∧ commandOf [0x20, 0x03, 0x00] = some (.reelSelectPlay 0 (some 0))
      ∧ (after (.rxByte 0 false) (l 3 none 1 [0x01])).lnk.overrun = true
      ∧ (after (.rxByte 0 false) (l 2 none 1 [0x01])).lnk.overrun = false := by decide

theorem meets_FramedCommandBecomesHeld :
    let i := Instr.cueWrite 40 write40
    State.reset.board.resetLow = false ∧ State.reset.lnk.rx = .hunting ∧ State.reset.lnk.held = none
      ∧ (bodyOf i).length ≤ 64 ∧ isCommandKind ((bodyOf i).headD 0) = true ∧ lengthAllowed (bodyOf i) = true
      ∧ commandOf (bodyOf i) = some i := by decide

/-- A message of each form ends, with each form of head of the answer list behind it. -/
theorem meets_TransmitterChooses :
    let a (k : Byte) : Answer := ⟨k, .done, .nothing⟩
    let s (m : Message) (answers : List Place) : State := { State.reset with
      lnk := { Link.reset with wire := some m, answers := answers, notices := [.takesFull 1] } }
    let next (m : Message) (answers : List Place) : Option Message := (after .txMessageEnd (s m answers)).lnk.wire
    (s (.answer (a 2)) []).board.resetLow = false
      ∧ next (.answer (a 2)) [] = none ∧ next (.answer (a 1)) [] = some (.notice (.takesFull 1))
      ∧ next (.linkAnswer ⟨.linkError, 0⟩) [.owner (some (a 1))] = some (.answer (a 1))
      ∧ next (.notice (.takesFull 2)) [.link ⟨.linkError, 0⟩] = some (.linkAnswer ⟨.linkError, 0⟩)
      ∧ next (.notice (.takesFull 2)) [.owner none, .link ⟨.linkError, 0⟩] = some (.notice (.takesFull 1)) := by decide

/-- With 23 notices waiting the next joins; with 24 it is discarded. -/
theorem meets_NoticesJoinOrAreDiscarded :
    let s (n : Nat) : State := sending { State.reset with lnk := { Link.reset with notices := List.replicate n (.takesFull 1) } }
    ((s 23).raise (.takesFull 2)).lnk.notices.length = 24 ∧ ((s 23).raise (.takesFull 2)).lnk.overrun = false
      ∧ ((s 24).raise (.takesFull 2)).lnk.notices.length = 24 ∧ ((s 24).raise (.takesFull 2)).lnk.overrun = true := by decide

theorem meets_RefusedCommandsChangeNothing :
    kindOf (.setRate 4) = some 0x08 ∧ (answerTo (.setRate 4) State.reset).map Result.isRefusal = some true
      ∧ kindOf .status = some 0x01 ∧ (answerTo .status State.reset).map Result.isRefusal = some false := by decide

theorem meets_CommandBodiesRoundTrip :
    kindOf (.takeRetire 1 1) = some 0x31 ∧ (List.replicate 64 (0 : Byte)).length ≤ 64 ∧ ([] : List Byte).length ≤ 64 := by
  decide

/-- Six takes with no pending edit and with one that names every field; an offset just above the largest carried. -/
theorem meets_CueAnswersFit :
    let all : EditVals :=
      ⟨some 0, some 1, some 1, some 1, some 6, some 1, some 23, some 0, some 0, some 0, some 0, some .once⟩
    let c : Cue := loop501 (.passing .record) (take 1 .complete false :: takes2to6) 7
    c.takes.length ≤ 6 ∧ (cueAnswerBytes .fps24 c).length = 61
      ∧ (cueAnswerBytes .fps24 { c with pending := some ⟨all, true⟩ }).length = 59
      ∧ { take 1 .opened false with offset := some 8388608 }.bytes.drop 3 = [0x7F, 0xFF, 0xFF] := by decide

/-- Each position state has its answer. -/
theorem meets_StatusAndPositionAnswer :
    let speed (p : Pos) : Option AnswerData := (after .positionRead { State.reset with pos := p }).lastAnswer.map fun a => a.data
    speed Pos.reset = some (.position ⟨.unknown, .forward, 0, false, ⟨0, 0, 0, 0⟩, 0⟩)
      ∧ speed (locked 89520) = some (.position ⟨.locked, .forward, 1000, true, ⟨1, 2, 10, 0⟩, 0⟩)
      ∧ speed { locked 89520 with state := .freewheel, count := 1, b := 79 }
        = some (.position ⟨.freewheel, .forward, 1000, true, ⟨1, 2, 10, 0⟩, 79⟩) := by decide

/-! ### The position -/

theorem meets_LabelsCountTheDayNonDrop :
    Rate.fps24 ≠ .drop30 ∧ (⟨23, 59, 59, 23⟩ : Label).valid .fps24 = true ∧ (⟨23, 59, 59, 24⟩ : Label).valid .fps24 = false
      ∧ (⟨0, 0, 0, 0⟩ : Label).valid .fps30 = true ∧ 2159999 < Rate.fps25.fDay ∧ labelOf .fps25 2159999 = ⟨23, 59, 59, 24⟩ := by
  decide

theorem meets_LabelsCountTheDayDrop :
    (⟨23, 59, 59, 29⟩ : Label).valid .drop30 = true ∧ (⟨0, 1, 0, 1⟩ : Label).valid .drop30 = false
      ∧ (⟨0, 1, 0, 2⟩ : Label).valid .drop30 = true ∧ (⟨0, 10, 0, 1⟩ : Label).valid .drop30 = true
      ∧ labelOf .drop30 1 = ⟨0, 0, 0, 1⟩ ∧ labelOf .drop30 17981 = ⟨0, 9, 59, 29⟩ ∧ labelOf .drop30 17983 = ⟨0, 10, 0, 1⟩ := by
  decide

/-- Good and bad frames at the ends of the decode window, with the room the statement asks for. -/
theorem meets_FramesAreJudged :
    let f (d : Nat) : LtcFrame := { ltc 1 2 10 0 with duration := d }
    syncPresent (f 512000) = true ∧ State.reset.lnk.notices.length + 2 ≤ Config.noticeRoom
      ∧ State.reset.pos.state ≠ .locked
      ∧ goodFrame .fps24 (f 2048000) = true ∧ goodFrame .fps24 (f 128000) = true
      ∧ goodFrame .fps24 (f 2056225) = false ∧ goodFrame .fps24 (f 127968) = false
      ∧ goodFrame .drop30 (f 512000) = false ∧ goodFrame .fps24 (ltc 1 2 10 24) = false
      ∧ dropFlag (f 512000) ≠ Rate.drop30.isDrop := by decide

/-- Good frames in UNKNOWN, in STOPPED and in LOCKED: the expected frame, round the day, and a jump. -/
theorem meets_GoodFramesMoveThePosition :
    let f := ltc 0 0 0 0
    let back : LtcFrame := { f with dir := .reverse, cells := 0x3FFD }
    let jump (n : Nat) (f : LtcFrame) : List Bool := (after (.ltcFrame f) { State.reset with pos := locked n }).raised.filterMap
      fun i => match i with
        | .pscFrameEdge e => some e.jump
        | _ => none
    syncPresent f = true ∧ goodFrame State.reset.pos.rate f = true ∧ State.reset.pos.state = .unknown
      ∧ ({ State.reset.pos with state := PosState.stopped } : Pos).state = .stopped ∧ (locked 5).state = .locked
      ∧ State.reset.lnk.notices.length + 1 ≤ Config.noticeRoom ∧ syncPresent back = true ∧ goodFrame .fps24 back = true
      ∧ jump 2073599 f = [false] ∧ jump 0 f = [true] ∧ jump 1 back = [false] ∧ jump 2073599 back = [true] := by decide

/-- A missing frame with limits 0 and 1, bad frames whose flag agrees and disagrees, and a freewheel below and at its limit. -/
theorem meets_MissingFramesFreewheelOrStop :
    let s (p : Pos) : State := { State.reset with pos := p }
    let w (limit : Nat) : PosState := (after .watchTimerExpiry (s { locked 5 with limit := limit })).pos.state
    let free (count : Nat) : Pos := { locked 5 with state := .freewheel, count := count, limit := 2 }
    let bad := ltc 1 2 10 24
    let drop : LtcFrame := { bad with cells := bad.cells ||| 1024 }
    syncPresent drop = true ∧ dropFlag drop ≠ Rate.fps24.isDrop ∧ goodFrame .fps24 drop = false
      ∧ (after (.ltcFrame drop) (s (locked 5))).lnk.noticesHeld = [.rateMismatch true, .position .freewheel .forward]
      ∧ (after (.ltcFrame drop) (s { locked 5 with limit := 0, mismatch := true })).lnk.noticesHeld
        = [.position .stopped .forward]
      ∧ State.reset.lnk.notices.length + 2 ≤ Config.noticeRoom ∧ State.reset.pos.state ≠ .locked ∧ State.reset.pos.state ≠ .freewheel ∧ w 0 = .stopped ∧ w 1 = .freewheel
      ∧ syncPresent bad = true ∧ dropFlag bad = Rate.fps24.isDrop ∧ goodFrame .fps24 bad = false
      ∧ (after (.ltcFrame bad) (s (locked 5))).pos.state = .freewheel
      ∧ (after .freewheelTimerExpiry (s (free 1))).pos.count = 2
      ∧ (after .freewheelTimerExpiry (s (free 2))).pos.state = .stopped
      ∧ State.reset.lnk.notices.length + 1 ≤ Config.noticeRoom := by decide

/-- The three rows of R75. -/
theorem meets_GoodFrameEndsFreewheel :
    let f := ltc 1 2 10 0
    let s (n : Nat) : State := { State.reset with pos := { locked n with state := .freewheel, count := 1 } }
    let edges (n : Nat) : List Instr := (after (.ltcFrame f) (s n)).raised.drop 4
    syncPresent f = true ∧ goodFrame .fps24 f = true ∧ (s 5).pos.state = .freewheel
      ∧ State.reset.lnk.notices.length + 1 ≤ Config.noticeRoom
      ∧ edges 89520 = [] ∧ edges 89519 = edgeEvents (edge 89520) 0 ∧ edges 89521 = edgeEvents { edge 89520 with jump := true } 0 := by
  decide

/-- Forward cells 78 and 79, reverse cells 1 and 0, and a state without ticks. -/
theorem meets_TicksMoveTheCell :
    let b (p : Pos) : Nat := (after .posTick { State.reset with pos := p }).pos.b
    b { locked 5 with b := 78 } = 79 ∧ b { locked 5 with b := 79 } = 79 ∧ b { locked 5 with b := 1, dir := .reverse } = 0
      ∧ b { locked 5 with b := 0, dir := .reverse } = 0 ∧ b { Pos.reset with b := 4 } = 4 := by decide

theorem meets_SetRateMakesUnknown :
    State.reset.lnk.notices.length + 1 ≤ Config.noticeRoom ∧ answerTo (.setRate 3) State.reset = some .done
      ∧ answerTo (.setRate 4) State.reset = some .badField ∧ answerTo (.setRate 3) (stage 5 [] []) = some .reelNotEmpty
      ∧ (after (.setRate 2) { State.reset with pos := locked 5 }).pos = { Pos.reset with rate := .fps30 } := by decide

theorem meets_SetFreewheelStoresTheLimit :
    let free : State := { State.reset with pos := { locked 5 with state := .freewheel, count := 5 } }
    let t := after (.setFreewheel 5) free
    (t.pos.state = .freewheel ∧ t.pos.limit ≤ t.pos.count)
      ∧ (after (.setFreewheel 0) { State.reset with pos := locked 5 }).pos.state = .locked
      ∧ (after (.setFreewheel 30) free).pos.limit = 30 ∧ (after (.setFreewheel 31) free).pos.limit = 30 := by decide

/-! ### The Cue Store -/

/-- Reel codes 7 and 8, with every context FREE and with one ACTIVE, naming the play reel and another. -/
theorem meets_ReelSelectorsFollow :
    State.reset.lnk.notices.length + 1 ≤ Config.noticeRoom ∧ reelOf 7 = some 7 ∧ reelOf 8 = none
      ∧ (∀ k : Fin 4, State.reset.ctx k = none) ∧ answerTo (.reelSelectPlay 0) State.reset = some .done
      ∧ (after (.reelSelectPlay 7) State.reset).cst.playReel = 7
      ∧ ((passing 89460 .lead).ctx 0).isSome = true
      ∧ answerTo (.reelSelectPlay 1) (passing 89460 .lead) = some .done
      ∧ answerTo (.reelSelectPlay 1 (some 252)) State.reset = some .badField
      ∧ answerTo (.reelSelectPlay 7) (passing 89460 .lead) = some .pending := by decide

theorem meets_ReelTagsAreKept :
    7 < (8 : Byte).toNat ∧ answerTo (.reelSelectTag 8 1) State.reset = some .badField ∧ reelOf 7 = some 7
      ∧ ((after (.reelSelectTag 7 0xFFFF) State.reset).reel 7).tag = 0xFFFF := by decide

/-- Loop numbers 0, 1, 9999 and 10,000; a cue found and not found; labels below, at and above the last key. -/
theorem meets_LookupsReadTheReels :
    let c (loop : Nat) : Cue := cue loop vals31 .ready
    let s := stage 5 [(0, c 1), (1, c 9999)] [0, 1]
    s.cst.lawful = true ∧ reelOf 7 = some 7 ∧ reelOf 8 = none
      ∧ answerTo (.cueRead 0) s = some .badField ∧ answerTo (.cueRead 10000) s = some .badField
      ∧ s.found 1 = some (0, c 1) ∧ s.found 9999 = some (1, c 9999) ∧ s.found 2 = none
      ∧ (⟨1, 2, 10, 24⟩ : Label).frame s.pos.rate = none ∧ (⟨1, 2, 10, 0⟩ : Label).frame s.pos.rate = some 89520
      ∧ s.editReel.order.find? (fun x => decide ((89520 : Int) ≤ s.editReel.key x)) = some 0 ∧ s.editReel.cue 0 = some (c 1)
      ∧ (∀ slot ∈ s.editReel.order, s.editReel.key slot < (89521 : Int)) := by decide

/-- Each branch of REEL_CLEAR. -/
theorem meets_ReelClearEmptiesTheReel :
    let s := stage 5 [(0, cue 1 vals31 (.armed .record))] [0]
    let st (x : ReelState) : State := s.modReel 1 fun r => { r with state := x }
    answerTo .reelClear (st .conforming) = some .reelBusy ∧ answerTo .reelClear (st .locked) = some .reelBusy
      ∧ answerTo .reelClear State.reset = some .done ∧ answerTo .reelClear (passing 89460 .lead) = some .passActive
      ∧ answerTo .reelClear s = some .done ∧ (after .reelClear s).reel 1 = Reel.reset
      ∧ ((after .reelClear ((st .partly).modReel 1 fun r => { r with conform := some ⟨.copy 2, 0, 0⟩ })).reel 2).state = .opened := by
  decide

/-- Each check of R30 decides on some write, at the ends of its range. -/
theorem meets_CueWriteChecksInOrder :
    let s := written [] [1, 0]
    let f : CueFields := { write40 with beeps := 4, spacing := 60, onTime := 4800, tone := 239, streamer := 12, colour := 7, tail := 240 }
    let st (x : ReelState) : State := s.modReel 1 fun r => { r with state := x }
    answerTo (.cueWrite 0 f) s = some .badField ∧ answerTo (.cueWrite 10000 f) s = some .badField
      ∧ answerTo (.cueWrite 1 { f with mode := 2 }) s = some .badField
      ∧ answerTo (.cueWrite 1 f) (st .conforming) = some .reelBusy ∧ answerTo (.cueWrite 1 f) (st .locked) = some .reelBusy
      ∧ answerTo (.cueWrite 1 f) (st .partly) = some .reelPartial
      ∧ answerTo (.cueWrite 1 { f with outPt := ⟨1, 5, 2, 24⟩ }) s = some .badTimecode
      ∧ answerTo (.cueWrite 1 { f with outPt := f.inPt }) s = some .badField
      ∧ answerTo (.cueWrite 14 f) s = some .duplicateLoop
      ∧ answerTo (.cueWrite 1 f) s = some .done ∧ answerTo (.cueWrite 9999 { f with mode := 1 }) s = some .done
      ∧ answerTo (.cueWrite 1 { f with onTime := 4801 }) s = some .adjusted := by decide

set_option maxRecDepth 4000 in
/-- 160 cues fill the reel. -/
theorem meets_CueWrite_full :
    let full (n : Nat) : State := (stage 5 [] []).modReel 1 fun r => { r with cues := List.replicate n (0, cue 14 vals31 .ready) }
    answerTo (.cueWrite 1 write40) (full 160) = some .reelFull := by decide

/-- The first cue of an EMPTY reel in slot 0, and a third in slot 2 with loop number 9999. -/
theorem meets_CueWriteCreatesTheCue :
    let s := written [] [1, 0]
    let f := write40
    let e : State := { State.reset with pos := locked 5 }
    (1 ≤ (9999 : BitVec 16).toNat ∧ (9999 : BitVec 16).toNat ≤ 9999 ∧ f.mode.toNat ≤ 1)
      ∧ (s.editReel.state = .opened ∧ e.editReel.state = .empty)
      ∧ (f.inPt.valid s.pos.rate = true ∧ f.outPt.valid s.pos.rate = true ∧ f.inPt.number s.pos.rate < f.outPt.number s.pos.rate)
      ∧ (∀ p ∈ s.editReel.cues, p.2.loop ≠ (9999 : BitVec 16).toNat) ∧ s.editReel.cues.length < 160
      ∧ s.editReel.lawful = true ∧ e.editReel.lawful = true ∧ s.editReel.cue 2 = none ∧ e.editReel.cue 0 = none
      ∧ (∀ k < 2, (s.editReel.cue k).isSome = true) := by decide

/-- Each check of R32 decides on some amend. -/
theorem meets_CueAmendChecksInOrder :
    let s := written [loop15] [1, 0, 2]
    let st (x : ReelState) : State := s.modReel 1 fun r => { r with state := x }
    let named := { amendNone with char := some 5 }
    let armed := stage 5 [(0, cue 31 vals31 (.armed .record))] [0]
    s.cst.lawful = true ∧ s.found 15 = some loop15 ∧ s.found 16 = none
      ∧ answerTo (.cueAmend 0 0 named) s = some .badField ∧ answerTo (.cueAmend 10000 0 named) s = some .badField
      ∧ answerTo (.cueAmend 15 8 named) s = some .badField ∧ answerTo (.cueAmend 15 0 amendNone) s = some .badField
      ∧ answerTo (.cueAmend 15 0 { named with mode := some 2 }) s = some .badField
      ∧ answerTo (.cueAmend 15 0 named) (st .conforming) = some .reelBusy
      ∧ answerTo (.cueAmend 15 0 named) (st .partly) = some .reelPartial
      ∧ answerTo (.cueAmend 15 0 { named with inPt := some ⟨24, 0, 0, 0⟩ }) s = some .badTimecode
      ∧ answerTo (.cueAmend 16 0 named) s = some .noSuchCue
      ∧ answerTo (.cueAmend 15 0 named) (s.modCue 1 2 fun c => { c with protect := true }) = some .protectedCue
      ∧ answerTo (.cueAmend 15 0 { named with outPt := some ⟨1, 2, 10, 0⟩ }) s = some .badField
      ∧ answerTo (.cueAmend 31 0 { named with lines := some 0 }) armed = some .noLines
      ∧ answerTo (.cueAmend 31 0 { named with lines := some 0 }) (passing 89460 .lead) = some .noLines
      ∧ answerTo (.cueAmend 15 0 named) s = some .done ∧ answerTo (.cueAmend 15 0 { named with beeps := some 5 }) s = some .adjusted
      ∧ answerTo (.cueAmend 31 0 named) (passing 89460 .lead) = some .pending := by decide

/-- An amend of a PASSING cue, and one of a READY cue. -/
theorem meets_CueAmendTakesEffect :
    let f := { amendNone with inPt := some ⟨1, 2, 8, 12⟩, mode := some 1 }
    let ok (loop : BitVec 16) (slot : Nat) (c : Cue) (s : State) : Prop :=
      s.cst.lawful = true ∧ 1 ≤ loop.toNat ∧ loop.toNat ≤ 9999 ∧ s.editReel.state = .opened ∧ s.found loop = some (slot, c)
      ∧ c.protect = false ∧ (⟨1, 2, 8, 12⟩ : Label).number s.pos.rate < (c.pendingFields.over c.vals).outPt
      ∧ ¬ (c.state.kind = some .record ∧ f.lines.getD (c.pendingFields.over c.vals).lines = 0)
    amendNames f = true ∧ f.mode.all (fun m => m.toNat ≤ 1) = true ∧ f.inPt.all (fun l => l.valid .fps24) = true
      ∧ ok 15 2 loop15.2 (written [loop15] [1, 0, 2])
      ∧ ok 31 0 (cue 31 vals31 (.passing .record)) (passing 89460 .lead) := by decide

/-- The pass of the last ACTIVE context, with a pending play reel and without. -/
theorem meets_CueRetireRemovesTheCue :
    let s := passing 89460 .lead
    let w := waiting (sending s)
    s.cst.lawful = true ∧ s.PassesLawful ∧ w.PassesLawful ∧ s.cst.pendingPlay = none
      ∧ s.lnk.notices.length + 2 ≤ Config.noticeRoom
      ∧ s.found 31 = some (0, cue 31 vals31 (.passing .record)) ∧ s.found 32 = none ∧ w.found 31 = s.found 31
      ∧ (after (.cueRetire 31) w).lnk.noticesHeld = [.passEnd 0 1 31 (.aborted .retired) .lead none, .reelSwitched 5]
      ∧ (after (.cueRetire 31) w).cst.playReel = 5 :=
  ⟨lead_lawful.1, lead_lawful.2, lawful_of_checks _ (by decide) (by decide) (by decide), by decide⟩

/-- Each check of CUE_RETIRE, and a cue that is not PASSING. -/
theorem meets_CueRetire_branches :
    let s := written [loop15] [1, 0, 2]
    let st (x : ReelState) : State := s.modReel 1 fun r => { r with state := x }
    answerTo (.cueRetire 0) s = some .badField ∧ answerTo (.cueRetire 10000) s = some .badField
      ∧ answerTo (.cueRetire 15) (st .locked) = some .reelBusy ∧ answerTo (.cueRetire 15) (st .partly) = some .reelPartial
      ∧ answerTo (.cueRetire 16) s = some .noSuchCue
      ∧ answerTo (.cueRetire 15) (s.modCue 1 2 fun c => { c with protect := true }) = some .protectedCue
      ∧ answerTo (.cueRetire 15) s = some .done := by decide

/-- Each check of R42, with 99 and 100 as next take number, and five and six circled takes. -/
theorem meets_CueArmArmsTheCue :
    let s (c : Cue) : State := stage 5 [(0, c)] [0]
    let c := cue 31 vals31 .ready
    let six := (take 1 .complete true :: takes2to6).map fun t => { t with circled := true }
    let st (x : ReelState) : State := (s c).modReel 1 fun r => { r with state := x }
    (s c).cst.lawful = true ∧ (s c).found 31 = some (0, c)
      ∧ answerTo (.cueArm 0 0) (s c) = some .badField ∧ answerTo (.cueArm 31 2) (s c) = some .badField
      ∧ answerTo (.cueArm 31 1) (st .conforming) = some .reelBusy ∧ answerTo (.cueArm 31 1) (st .locked) = some .done
      ∧ answerTo (.cueArm 31 1) (st .partly) = some .reelPartial ∧ answerTo (.cueArm 32 1) (s c) = some .noSuchCue
      ∧ answerTo (.cueArm 31 1) (passing 89460 .lead) = some .passActive
      ∧ answerTo (.cueArm 31 1) (s { c with nextTake := 100 }) = some .takeLimit
      ∧ answerTo (.cueArm 31 1) (s { c with nextTake := 99 }) = some .done
      ∧ answerTo (.cueArm 31 1) (s { c with takes := six, nextTake := 7 }) = some .takesFull
      ∧ answerTo (.cueArm 31 1) (s { c with takes := six.tail, nextTake := 7 }) = some .done
      ∧ answerTo (.cueArm 31 0) (s { c with takes := six, nextTake := 100 }) = some .done := by decide

/-- CUE_DISARM in each cue state, and the checks of both commands. -/
theorem meets_CueDisarmAndProtect :
    let s (x : CueState) : State := stage 5 [(0, cue 31 vals31 x)] [0]
    let st (x : ReelState) : State := (s .ready).modReel 1 fun r => { r with state := x }
    let state (x : CueState) : Option CueState := ((after (.cueDisarm 31) (s x)).cue 1 0).map fun c => c.state
    (s .ready).cst.lawful = true ∧ (s .ready).found 31 = some (0, cue 31 vals31 .ready) ∧ (s .ready).found 9999 = none
      ∧ state .ready = some .ready ∧ state (.armed .record) = some .ready ∧ state .done = some .ready
      ∧ answerTo (.cueDisarm 31) (s (.passing .record)) = some .pending
      ∧ answerTo (.cueDisarm 0) (s .ready) = some .badField ∧ answerTo (.cueDisarm 31) (st .conforming) = some .reelBusy
      ∧ answerTo (.cueDisarm 31) (st .partly) = some .reelPartial
      ∧ answerTo (.cueProtect 31 1) (st .conforming) = some .done ∧ answerTo (.cueProtect 31 1) (st .partly) = some .reelPartial
      ∧ answerTo (.cueProtect 10000 1) (s .ready) = some .badField := by decide

/-- Each check of R155 for both commands, with take numbers 0, 1, 99 and 100. -/
theorem meets_TakesAreCircledAndRetired :
    let c := loop501 .ready [take 1 .complete false, take 98 .opened false, take 99 .aborted true] 100
    let s := stage 5 [(0, c)] [0]
    s.cst.lawful = true ∧ s.found 501 = some (0, c) ∧ s.found 1 = none
      ∧ answerTo (.takeCircle 0 1 1) s = some .badField ∧ answerTo (.takeCircle 501 0 1) s = some .badField
      ∧ answerTo (.takeCircle 501 100 1) s = some .badField ∧ answerTo (.takeCircle 501 1 2) s = some .badField
      ∧ answerTo (.takeCircle 501 1 1) (s.modReel 1 fun r => { r with state := .partly }) = some .reelPartial
      ∧ answerTo (.takeCircle 1 1 1) s = some .noSuchCue ∧ answerTo (.takeCircle 501 2 1) s = some .noSuchTake
      ∧ answerTo (.takeCircle 501 1 1) (s.modCue 1 0 fun c => { c with protect := true }) = some .protectedCue
      ∧ answerTo (.takeRetire 501 98) s = some .passActive ∧ answerTo (.takeRetire 501 99) s = some .done
      ∧ answerTo (.takeCircle 501 99 0) s = some .done ∧ answerTo (.takeRetire 501 1) s = some .done := by decide

/-! ### The Conform Unit -/

/-- Each check of REEL_SHIFT and REEL_RESUME, with deltas at both ends of the day and of the bound. -/
theorem meets_ShiftsStartAndConformsResume :
    let s := stage 5 [(0, cue 1 vals31 .ready)] [0]
    let st (x : ReelState) : State := s.modReel 1 fun r => { r with state := x }
    let busy : State := { s with cfu := some shiftInHand }
    answerTo (.reelShift 2073600) s = some .badField ∧ answerTo (.reelShift (-2073600)) s = some .badField
      ∧ answerTo (.reelShift 2073599) s = some .outOfDay ∧ answerTo (.reelShift 1) busy = some .conformBusy
      ∧ answerTo (.reelShift 1) (st .partly) = some .reelPartial ∧ answerTo (.reelShift 1) (st .locked) = some .reelBusy
      ∧ answerTo (.reelShift 1) (passing 89460 .lead) = some .passActive
      ∧ answerTo (.reelShift 1983995) s = some .pending ∧ answerTo (.reelShift 1983996) s = some .outOfDay
      ∧ answerTo (.reelShift (-89520)) s = some .pending ∧ answerTo (.reelShift (-89521)) s = some .outOfDay
      ∧ answerTo (.reelShift 1) State.reset = some .done
      ∧ answerTo .reelResume busy = some .conformBusy ∧ answerTo .reelResume (st .locked) = some .reelBusy
      ∧ answerTo .reelResume s = some .badField
      ∧ (shifting .partly).editReel.conform = some { op := .shift, delta := 48, cursor := 2 }
      ∧ answerTo .reelResume (shifting .partly) = some .pending := by decide

/-- A step that is not the last, and the last. -/
theorem meets_ShiftStepsMoveTheCues :
    let ok (op : Operation) (slot : Nat) (c : Cue) : Prop :=
      let s : State := { shifting .conforming with cfu := some op }
      s.cfu = some op ∧ op.op = .shift ∧ (s.reel op.target).order[op.cursor]? = some slot ∧ s.cue op.target slot = some c
      ∧ s.lnk.notices.length + 1 ≤ Config.noticeRoom ∧ 0 ≤ (c.vals.inPt : Int) + op.delta ∧ 0 ≤ (c.vals.outPt : Int) + op.delta
      ∧ c.conformPending = true ∧ (s.reel op.target).delta = op.delta
    ok shiftInHand 3 { cue 104 (vals 89520 89562 0 6 0 23 0 0 0) .done with conformPending := true }
      ∧ ok { shiftInHand with cursor := 3 } 2 { cue 103 (vals 89640 89688 0 6 0 23 0 0 0) .ready with conformPending := true } := by
  decide

/-- Each check of REEL_COPY. -/
theorem meets_ReelCopyStarts :
    let s := stage 5 [(0, cue 1 vals31 .ready)] [0]
    let st (x : ReelState) : State := s.modReel 1 fun r => { r with state := x }
    let edited := (passing 89460 .lead).modCue 1 0 fun c => { c with pending := some ⟨{ EditVals.none with inPt := some 5 }, false⟩ }
    reelOf 1 = some 1 ∧ reelOf 7 = some 7
      ∧ answerTo (.reelCopy 8 2 0) s = some .badField ∧ answerTo (.reelCopy 1 8 0) s = some .badField
      ∧ answerTo (.reelCopy 1 1 0) s = some .badField ∧ answerTo (.reelCopy 1 2 2073600) s = some .badField
      ∧ answerTo (.reelCopy 1 2 0) { s with cfu := some shiftInHand } = some .conformBusy
      ∧ answerTo (.reelCopy 1 2 0) (st .partly) = some .reelPartial ∧ answerTo (.reelCopy 1 2 0) (st .locked) = some .reelBusy
      ∧ answerTo (.reelCopy 2 1 0) s = some .reelNotEmpty ∧ answerTo (.reelCopy 1 2 0) edited = some .passActive
      ∧ answerTo (.reelCopy 1 2 (-89521)) s = some .outOfDay ∧ answerTo (.reelCopy 1 7 (-89520)) s = some .pending
      ∧ answerTo (.reelCopy 2 3 0) s = some .done ∧ answerTo (.reelCopy 1 2 0) (passing 89460 .lead) = some .pending := by
  decide

/-- The last step of a copy of one cue, and the first of a copy of two, with delta 0 and −89520. -/
theorem meets_CopyStepsCreateTheCues :
    let ok (op : Operation) (s : State) : Prop :=
      s.cfu = some op ∧ op.op = .copy 1 ∧ (1 : Fin 8) ≠ op.target ∧ (s.reel 1).order[op.cursor]? = some 0
      ∧ s.cue 1 0 = some (cue 1 vals31 .ready) ∧ (s.reel op.target).lawful = true ∧ s.cue op.target 0 = none
      ∧ s.lnk.notices.length + 1 ≤ Config.noticeRoom ∧ 0 ≤ (vals31.inPt : Int) + op.delta ∧ 0 ≤ (vals31.outPt : Int) + op.delta
    ok ⟨.copy 1, 2, 0, 0⟩ (after (.reelCopy 1 2 0) (stage 5 [(0, cue 1 vals31 .ready)] [0]))
      ∧ ok ⟨.copy 1, 2, -89520, 0⟩
        (after (.reelCopy 1 2 (-89520)) (stage 5 [(0, cue 1 vals31 .ready), (1, cue 2 vals31 .done)] [0, 1])) := by decide

/-! ### Passes -/

/-- A pass in each phase, an abort edge of each cause, contexts 0 and 3, and a code that names none. -/
theorem meets_AbortsEndEveryPass :
    let s := passing 89460 .lead
    s.cst.lawful = true ∧ s.PassesLawful ∧ (passing 89550 .line).PassesLawful ∧ (passing 89610 .tail).PassesLawful
      ∧ runningEdge { edge 5 with jump := true } = false ∧ runningEdge { edge 5 with dir := .reverse } = false
      ∧ runningEdge { edge 5 with inSpeed := false } = false ∧ PosState.freewheel ≠ .stopped
      ∧ (4 ≤ (4 : Byte).toNat ∧ (4 : Byte) ≠ 0xFF) ∧ (3 : Byte).toNat = (3 : Fin 4).val
      ∧ s.lnk.notices.length + 5 ≤ Config.noticeRoom ∧ s.ctx 0 = some (serving 0 31 .lead vals31) ∧ s.ctx 3 = none
      ∧ (s.cue 1 0).isSome = true :=
  ⟨lead_lawful.1, lead_lawful.2, line_lawful.2, tail_lawful.2, by decide⟩

/-- A pending play reel that each of the aborts applies, and a PASS_ABORT of a FREE context, which applies none. -/
theorem meets_AbortsEndEveryPass_switch :
    let s := waiting (sending (passing 89460 .lead))
    let ends (c : AbortCause) : List Notice := [.passEnd 0 1 31 (.aborted c) .lead none, .reelSwitched 5]
    let t := after (.pscFrameEdge { edge 5 with jump := true }) s
    s.cst.lawful = true ∧ s.PassesLawful ∧ (t.lnk.noticesHeld, t.psc.pointer, t.psc.refind) = (ends .jump, none, true)
      ∧ (after (.pscStateEvent .stopped .forward) s).lnk.noticesHeld = ends .stopped
      ∧ (after (.passAbort 0xFF) s).lnk.noticesHeld = ends .commanded
      ∧ (after (.passAbort 0) s).cst.playReel = 5 ∧ (after (.passAbort 1) s).cst.playReel = 1
      ∧ (after (.passAbort 0) s).lnk.noticesHeld = ends .commanded ∧ (after (.passAbort 1) s).lnk.noticesHeld = []
      ∧ s.lnk.notices.length + 2 ≤ Config.noticeRoom :=
  ⟨by decide, lawful_of_checks _ (by decide) (by decide) (by decide), by decide⟩

/-- Every context FREE: the pointer re-found for each reason, moved forward over a cue on an abort edge and on a running one,
and moved back over it. -/
theorem meets_PointerFollowsPicture :
    let s := stage 89520 [(0, cue 31 vals31 (.armed .record))] [0]
    let off (e : FrameEdge) : FrameEdge := { e with inSpeed := false }
    let back (n : Nat) : FrameEdge := { edge n with dir := .reverse }
    let at' (p : Option Nat) : State := { s with psc := { s.psc with pointer := p } }
    s.cst.lawful = true ∧ (∀ k : Fin 4, s.ctx k = none) ∧ runningEdge (off (edge 89520)) = false ∧ runningEdge (back 5) = false
      ∧ s.lnk.notices.length + 1 ≤ Config.noticeRoom
      ∧ (after (.pscFrameEdge (off (edge 89520))) (at' none)).lnk.noticesHeld = [.missed 31 .lateStart]
      ∧ (after (.pscFrameEdge (off (edge 89604))) (at' none)).lnk.noticesHeld = []
      ∧ (after (.pscFrameEdge (off (edge 0))) (at' (some 1))).psc.pointer = some 0
      ∧ (after (.pscFrameEdge (back 2073599)) (at' (some 0))).psc.pointer = some 1
      ∧ (after (.pscFrameEdge (off (edge 89520))) (at' (some 0))).lnk.noticesHeld = [.missed 31 .notEntered]
      ∧ (after (.pscFrameEdge (edge 89520)) (at' (some 0))).lnk.noticesHeld = [.missed 31 .notEntered]
      ∧ (after (.pscFrameEdge (edge 89520)) (at' none)).lnk.noticesHeld = [.missed 31 .lateStart]
      ∧ runningEdge (edge 89520) = true
      ∧ (after (.pscFrameEdge (off (edge 89519))) (at' (some 0))).psc.pointer = some 0
      ∧ (after (.pscFrameEdge (back 89519)) (at' (some 1))).psc.pointer = some 0
      ∧ (after (.pscFrameEdge (back 89520)) (at' (some 1))).psc.pointer = some 1 := by decide

/-- The first and the last frame of an entry window, on an OPEN and on a LOCKED play reel. -/
theorem meets_EntriesFollowTheSlice :
    let s := stage 89447 [(0, cue 201 vals31 (.armed .record))] [0]
    s.cst.lawful = true ∧ (∀ k : Fin 4, s.ctx k = none) ∧ runningEdge (edge 89448) = true ∧ s.playReel.state = .opened
      ∧ (s.modReel 1 fun r => { r with state := .locked }).playReel.state = .locked
      ∧ ((after (.pscFrameEdge (edge 89447)) s).ctx 0).isSome = false
      ∧ ((after (.pscFrameEdge (edge 89448)) s).ctx 0).isSome = true
      ∧ ((after (.pscFrameEdge (edge 89519)) s).ctx 0).map (fun c => (c.late, c.take)) = some (true, some 1)
      ∧ ((after (.pscFrameEdge (edge 89520)) s).ctx 0).isSome = false := by decide

/-- A pass in flight: an abort edge that applies its pending in-point sets the mark for the next edge, and with a pending
play reel the pointer is left unset. -/
theorem meets_PointerFollowsPicture_passes :
    let s := passing 89530 .line
    let edited := s.modCue 1 0 fun c => { c with pending := some ⟨{ EditVals.none with inPt := some 89560 }, false⟩ }
    let t := after (.pscFrameEdge { edge 89531 with inSpeed := false })
    s.PassesLawful ∧ edited.PassesLawful ∧ edited.cst.lawful = true ∧ (waiting s).PassesLawful
      ∧ (t edited).psc.refind = true ∧ (t edited).psc.pointer = some 0
      ∧ (after (.pscFrameEdge { edge 89580 with inSpeed := false }) (t edited)).lnk.noticesHeld.getLast? = some (.missed 31 .lateStart)
      ∧ (t s).psc.refind = false ∧ (t s).psc.pointer = some 1
      ∧ (t (waiting s)).psc.refind = true ∧ (t (waiting s)).psc.pointer = none :=
  ⟨lawful_of_checks _ (by decide) (by decide) (by decide), lawful_of_checks _ (by decide) (by decide) (by decide), by decide,
    lawful_of_checks _ (by decide) (by decide) (by decide), by decide⟩

/-- A context ACTIVE beside an entry, one that closes at the edge of an entry, a pending play reel applied by that close, one
that stays pending beside an ACTIVE context, and a CONFORMING and a PARTIAL play reel. -/
theorem meets_EntriesFollowTheSlice_active :
    let s (n : Nat) (phase : Phase) (v : CueVals) : State :=
      (stage n [(0, cue 31 v (.passing .record)), (1, cue 302 vals302 (.armed .record))] [0, 1]).setCtx 0
        (some (serving 0 31 phase v))
    let closing := s 89499 .tail { vals31 with inPt := 89400, outPt := 89488 }
    let st (x : ReelState) (u : State) : State := u.modReel 1 fun r => { r with state := x }
    let idle := stage 89447 [(0, cue 201 vals31 (.armed .record))] [0]
    let t := after (.pscFrameEdge (edge 89500))
    (s 89499 .lead vals31).PassesLawful ∧ closing.PassesLawful ∧ (waiting closing).PassesLawful
      ∧ closing.cst.lawful = true ∧ runningEdge (edge 89500) = true
      ∧ ((t (s 89499 .lead vals31)).ctx 1).map (fun c => c.loop) = some 302
      ∧ ((t closing).ctx 0).map (fun c => c.loop) = some 302
      ∧ (∀ k : Fin 4, (t (waiting closing)).ctx k = none) ∧ (t (waiting closing)).psc.pointer = none
      ∧ (t (waiting (s 89499 .lead vals31))).ctx 1 = none ∧ (t (waiting (s 89499 .lead vals31))).cst.pendingPlay = some 5
      ∧ ((t (waiting (s 89499 .lead vals31))).cue 1 1).map (fun c => (c.state, c.waited)) = some (.armed .record, false)
      ∧ ((after (.pscFrameEdge (edge 89448)) (st .conforming idle)).ctx 0) = none
      ∧ ((after (.pscFrameEdge (edge 89448)) (st .partly idle)).ctx 0) = none :=
  ⟨lawful_of_checks _ (by decide) (by decide) (by decide), lawful_of_checks _ (by decide) (by decide) (by decide),
    lawful_of_checks _ (by decide) (by decide) (by decide), by decide⟩

/-- Four contexts ACTIVE: a candidate is marked waited, with a pending play reel and without, and the lane report carries the
four. -/
theorem meets_EntriesFollowTheSlice_four :
    let one (k loop : Nat) : Nat × Cue := (k, cue loop vals31 (.passing .record))
    let s := stage 89499 [one 0 1, one 1 2, one 2 3, one 3 4, (4, cue 302 vals302 (.armed .record))] [0, 1, 2, 3, 4]
    let s := { s with psc := { s.psc with ctxs := Vector.ofFn fun k => some (serving k (k + 1) .lead vals31) } }
    let t := after (.pscFrameEdge (edge 89500))
    s.cst.lawful = true ∧ s.PassesLawful ∧ (waiting s).PassesLawful ∧ runningEdge (edge 89500) = true
      ∧ ((t s).cue 1 4).map (fun c => (c.state, c.waited)) = some (.armed .record, true)
      ∧ ((t (waiting s)).cue 1 4).map (fun c => (c.state, c.waited)) = some (.armed .record, true)
      ∧ (t (waiting s)).raised = [.laneReport ⟨89500, .locked, [(0, .lead), (1, .lead), (2, .lead), (3, .lead)]⟩] :=
  ⟨by decide, lawful_of_checks _ (by decide) (by decide) (by decide), lawful_of_checks _ (by decide) (by decide) (by decide),
    by decide⟩

/-- The hypotheses at a staging edge, at an out-point edge and at a close. -/
theorem meets_PassesFollowTheFrame :
    let ok (n : Nat) (phase : Phase) : Prop :=
      let s := passing (n - 1) phase
      runningEdge (edge n) = true ∧ s.ctx 0 = some (serving 0 31 phase vals31)
      ∧ s.cue 1 0 = some (cue 31 vals31 (.passing .record))
    vals31.inPt < vals31.outPt ∧ (serving 0 31 .lead vals31).close = vals31.outPt + vals31.tail
      ∧ ok 89519 .lead ∧ ok 89520 .lead ∧ ok 89603 .line ∧ ok 89604 .line ∧ ok 89616 .tail := by decide

theorem meets_PassesFollowTheFrame_laws :
    (passing 89460 .lead).cst.lawful = true ∧ (passing 89460 .lead).PassesLawful ∧ (passing 89550 .line).PassesLawful
      ∧ (passing 89610 .tail).PassesLawful :=
  ⟨lead_lawful.1, lead_lawful.2, line_lawful.2, tail_lawful.2⟩

/-- A pass across midnight, with X 2,073,610: in LINE and TAIL before it, in TAIL on the last frame of the day, on frame 0 and on
the one before X − F_day, and closed on X − F_day. -/
theorem meets_PassesFollowTheFrame_midnight :
    let v : CueVals := { vals31 with inPt := 2073500, outPt := 2073590, tail := 20 }
    let s (n : Nat) (phase : Phase) : State :=
      (stage n [(0, cue 31 v (.passing .record))] [0]).setCtx 0 (some (serving 0 31 phase v))
    let phase (n : Nat) (p : Phase) : Option Phase :=
      ((after (.pscFrameEdge (edge n)) (s (n - 1) p)).ctx 0).map fun c => c.phase
    (s 5 .tail).cst.lawful = true ∧ (s 5 .tail).PassesLawful ∧ (serving 0 31 .tail v).close = v.outPt + v.tail
      ∧ (s 5 .tail).pos.rate.fDay ≤ (serving 0 31 .tail v).close ∧ runningEdge (edge 10) = true
      ∧ phase 2073589 .line = some .line ∧ phase 2073590 .line = some .tail ∧ phase 2073599 .tail = some .tail
      ∧ phase 0 .tail = some .tail ∧ phase 9 .tail = some .tail ∧ phase 10 .tail = none
      ∧ (after (.pscFrameEdge (edge 10)) (sending (s 9 .tail))).lnk.noticesHeld = [.passEnd 0 1 31 .completed .tail none] :=
  ⟨by decide, lawful_of_checks _ (by decide) (by decide) (by decide), by decide⟩

/-- A pending play reel applied by the close of the one pass in flight. -/
theorem meets_PassesFollowTheFrame_switch :
    let s := waiting (sending (passing 89615 .tail))
    let t := after (.pscFrameEdge (edge 89616)) s
    s.PassesLawful ∧ (serving 0 31 .tail vals31).close = 89616
      ∧ (t.cst.playReel, t.cst.pendingPlay, t.psc.pointer, t.psc.refind) = (5, none, none, true)
      ∧ t.lnk.noticesHeld = [.passEnd 0 1 31 .completed .tail none, .reelSwitched 5] :=
  ⟨lawful_of_checks _ (by decide) (by decide) (by decide), by decide⟩

/-- A report in turn, and one for which an older one waits. -/
theorem meets_ReportsReachTheContexts :
    let s := passing 89550 .line
    let r : PunchReport := ⟨0, 31, .punchIn, 0x03⟩
    let w : State := { s with raised := [.freeHandover 1, .punchReport r, .guardReport] }
    s.PassesLawful ∧ s.ctx 0 = some (serving 0 31 .line vals31) ∧ s.ctx 1 = none ∧ s.raised = []
      ∧ after .guardReport w = w ∧ (after (.punchReport r) w).raised = [.freeHandover 1, .guardReport]
      ∧ ((after .guardReport (after (.punchReport r) w)).ctx 0).map (fun c => (c.granted, c.held)) = some (0x03, 0) :=
  ⟨line_lawful.2, by decide⟩

/-! ### Count-in, overlay, punch lines and voice -/

theorem meets_TicksFindTheBeepGates :
    let s := twoPasses 89496
    (∀ (k : Fin 4), (s.ciu.beats[k].cue).all (fun c => decide (c.beeps ≤ 4)) = true)
      ∧ s.ciu.beats[0].start = some 89448 ∧ s.ciu.beats[0].cue = some vals31.countIn ∧ s.ciu.beats[2].start = none := by
  decide

theorem meets_HandoversSetTheBeatStates :
    let s := twoPasses 89496
    s.ctx 0 = some (serving 0 301 .lead vals31) ∧ s.cue 1 0 = some (cue 301 vals31 (.passing .record)) ∧ vals31.beeps ≤ 4
      ∧ s.ctx 2 = none ∧ (after (.freeHandover 0) (s.setCtx 0 none)).ciu.beats[0] = Beat.reset
      ∧ (after (.entryHandover 2 89500) s).ciu.beats[2] = ⟨some 89500, none, none, false⟩
      ∧ s.ciu.last = none ∧ (after (.ciuTick 7159680 .forward) s).ciu.last = some (7159680, .forward)
      ∧ (after (.ciuTick 7159680 .forward) s).ciu.tone.sounding.isSome = true := by decide

/-- A report in turn, and one for which the state event of a lock waits. -/
theorem meets_DescriptorsShowThePasses :
    let s := twoPasses 89520
    let lanes : List (Fin 4 × Phase) := [(0, .line), (1, .lead)]
    let d : Descriptor := ⟨2591999, .freewheel, [⟨3, 0xFF, 7, .tail, some 959, some 4, false, false⟩, ⟨0, 0, 0, .lead, none, none, true, true⟩]⟩
    (d.frame < 16777216 ∧ d.lanes.length ≤ 4 ∧ ∀ l ∈ d.lanes, l.colour ≤ 7
      ∧ l.digit.all (fun x => decide (1 ≤ x ∧ x ≤ 4)) = true ∧ l.column.all (fun x => decide (x ≤ 959)) = true) ∧
    (∀ l ∈ lanes, ((s.ctx l.1).any fun c => (s.cue c.reel c.slot).any fun q => decide (q.vals.beeps ≤ 4)) = true)
      ∧ s.ovl.quiet = false ∧ State.reset.ovl.quiet = true ∧ lanes[1]? = some (1, .lead)
      ∧ s.ctx 1 = some (serving 1 302 .lead vals302) ∧ s.cue 1 1 = some (cue 302 vals302 (.passing .record))
      ∧ s.raised.all (fun i => decide (channelOf i ≠ some .toOverlay)) = true
      ∧ (let r : LaneReport := ⟨89520, .locked, lanes⟩
         let w : State := { s with raised := [.ciuTick 5 .forward, .ovlStateEvent .locked .forward, .laneReport r] }
         after (.laneReport r) w = w
           ∧ ((after (.laneReport r) (after (.ovlStateEvent .locked .forward) w)).ovl.wire.map fun d => d.frame) = some 89520) := by
  decide

/-- A state event in turn, one for which a report waits, and that of UNKNOWN, which waits for no report. -/
theorem meets_OverlayPortSendsInOrder :
    let event (x : PosState) : Instr := .ovlStateEvent x .forward
    let w (x : PosState) : State := { State.reset with raised := [.laneReport ⟨5, .locked, []⟩, event x] }
    State.reset.ovl.wire = none ∧ (after (event .unknown) State.reset).ovl.wire ≠ none
      ∧ (∀ x ∈ [PosState.locked, .freewheel, .stopped], after (event x) (w x) = w x)
      ∧ (after (event .unknown) (w .unknown)).raised = [.laneReport ⟨5, .locked, []⟩] := by decide

/-- Flash lengths 0, 1, 3 and 4; qualify lengths 0 and 1; allowances 48 and 49. -/
theorem meets_FlashAndVoiceSettingsAreStored :
    answerTo (.setFlash 0) State.reset = some .adjusted ∧ answerTo (.setFlash 1) State.reset = some .done
      ∧ answerTo (.setFlash 3) State.reset = some .done ∧ answerTo (.setFlash 4) State.reset = some .adjusted
      ∧ answerTo (.setVoice 0 48) State.reset = some .adjusted ∧ answerTo (.setVoice 1 48) State.reset = some .done
      ∧ answerTo (.setVoice 255 49) State.reset = some .adjusted := by decide

/-- Nine notices have room, and due, later and manual entries stand together. -/
theorem meets_PunchesAreTransferredAtTheirFrame :
    let s := (punched.setStaged 0 (some ⟨401, .punchOut, 0, 89544⟩)).setStaged 1 (some ⟨402, .punchIn, 0x06, 89544⟩)
    let s := s.setStaged 2 (some ⟨403, .punchIn, 0x08, 89580⟩)
    let m : State := { s with pch := { s.pch with manual := some ⟨0xC0, .punchIn⟩ } }
    let t := after (.pchFrameEdge (edge 89544)) m
    m.lnk.notices.length + 9 ≤ Config.noticeRoom ∧ s.pch.manual = none ∧ m.pch.manual = some ⟨0xC0, .punchIn⟩
      ∧ t.pch.linesIn = 0xC6 ∧ t.pch.staged[2] = some ⟨403, .punchIn, 0x08, 89580⟩ := by decide

theorem meets_StageRequestsAndReleases :
    let s := punched.setStaged 1 (some ⟨402, .punchIn, 0x04, 89500⟩)
    let w : State := { s with raised := [.laneReport ⟨5, .locked, []⟩, .stageRequest ⟨1, 402, .punchIn, 6, 9⟩, .release 1 402] }
    after (.release 1 402) w = w ∧ after (.stageRequest ⟨1, 402, .punchIn, 7, 9⟩) w = w
      ∧ (after (.stageRequest ⟨1, 402, .punchIn, 6, 9⟩) w).pch.staged[1] = some ⟨402, .punchIn, 6, 9⟩
      ∧ s.lnk.notices.length + 2 ≤ Config.noticeRoom ∧ punched.pch.staged[1] = none
      ∧ s.pch.staged[1] = some ⟨402, .punchIn, 0x04, 89500⟩ ∧ s.pch.lastEdge ≠ some 89544
      ∧ (after (.pchFrameEdge (edge 89544)) s).pch.lastEdge = some 89544 := by decide

theorem meets_SetLinesSetsModesAndPolarities :
    punched.lnk.notices.length + 1 ≤ Config.noticeRoom ∧ answerTo (.setLines 0xC1 0) punched = some .lineBusy
      ∧ answerTo (.setLines 0xC0 0) punched = some .done ∧ (after (.setLines 0x40 0) punched).pch.linesIn = 0x03 := by decide

/-- Each check of PUNCH_MANUAL, actions 0, 1 and 2, and each view of the position. -/
theorem meets_ManualPunchingMovesManualLines :
    let s := punched
    let view (x : PosState) : State := { s with pch := { s.pch with view := x } }
    let moved (x : PosState) : LineSet := (after (.punchManual 0x80 0) (view x)).pch.linesIn
    s.lnk.notices.length + 1 ≤ Config.noticeRoom ∧ answerTo (.punchManual 0 1) s = some .badField
      ∧ answerTo (.punchManual 0x80 2) s = some .badField
      ∧ answerTo (.punchManual 0x80 1) { s with pch := { s.pch with unit := .guarded } } = some .guarded
      ∧ answerTo (.punchManual 0x81 1) s = some .notManual
      ∧ moved .locked = 0x83 ∧ moved .freewheel = 0x83 ∧ moved .stopped = 0x03 ∧ moved .unknown = 0x03
      ∧ (after (.pchStateEvent .stopped .forward) s).pch.manual = none := by decide

/-- GUARD high, fallen with the fall untaken, and low with the fall taken. -/
theorem meets_GuardTripsAndReleases :
    let fallen := after (.guardTrip .line) punched
    let low := after (.guardTrip .taken) fallen
    punched.lnk.notices.length + 1 ≤ Config.noticeRoom ∧ punched.board.guardHigh = true
      ∧ (after (.guardTrip .taken) punched).board.guardHigh = false
      ∧ fallen.board.guardHigh = false ∧ Instr.guardTrip .taken ∈ fallen.raised ∧ answerTo .guardRelease fallen = some .done
      ∧ low.board.guardHigh = false ∧ Instr.guardTrip .taken ∉ low.raised ∧ answerTo .guardRelease low = some .guardActive
      ∧ (after .guardRise fallen).board.guardHigh = true
      ∧ (after (.guardTrip .taken) (after .guardRise fallen)).board.guardHigh = true := by decide

/-- Each row of R159, with a qualify length of 1 and of 2 and a tick across midnight. -/
theorem meets_VoiceRunsAreCountedOnTicks :
    let s (v : Vgt) : State := { State.reset with vgt := v }
    let run (v : Vgt) (t : Nat) : RunState × Nat := let u := (after (.vgtTick t .forward) (s v)).vgt; (u.run, u.count)
    let v : Vgt := ⟨2, 12, true, some (165887999, .forward), .counting, some 165887999, 1⟩
    run { v with level := false } 0 = (.idle, 0) ∧ run { v with run := .idle, count := 0 } 0 = (.counting, 1)
      ∧ run { v with qualify := 1 } 5 = (.qualified, 1) ∧ run v 5 = (.counting, 1) ∧ run v 0 = (.qualified, 2)
      ∧ run { v with qualify := 3 } 0 = (.counting, 2) ∧ run { v with run := .qualified } 0 = (.qualified, 1)
      ∧ v.start = some 165887999 := by decide

theorem meets_OnsetsReachOpenTakes :
    (passing 89550 .line).PassesLawful ∧ (passing 89550 .line).ctx 0 = some (serving 0 31 .line vals31)
      ∧ (passing 89550 .line).cue 1 0 = some (cue 31 vals31 (.passing .record)) ∧ (passing 89550 .line).ctx 1 = none :=
  ⟨line_lawful.2, by decide⟩

/-! ### The laws -/

/-- Lawful states from which a step goes on, one of them with a pending play reel. -/
theorem meets_the_laws :
    let s : State := { passing 89550 .line with pending := [.setFlash 2] }
    (∃ t, step s = .next t) ∧ s.lnk.lawful = true ∧ s.pos.lawful = true ∧ s.pch.lawful = true ∧ s.ciu.lawful = true
      ∧ s.cst.lawful = true ∧ s.PassesLawful ∧ (waiting s).PendingKept ∧ (waiting s).cst.pendingPlay = some 5
      ∧ s.FramesKept ∧ s.ctx 0 ≠ none ∧ s.PointerKept ∧ s.psc.pointer = some 0
      ∧ (twoPasses 89496).BeepsKept ∧ (twoPasses 89496).ciu.beats[0].cue ≠ none :=
  ⟨⟨_, rfl⟩, by decide, by decide, by decide, by decide, by decide,
    lawful_of_checks _ (by decide) (by decide) (by decide), fun _ => ⟨0, by decide⟩, by decide,
    frames_of_checks _ (by decide), by decide, pointer_of_checks _ (by decide), by decide, beeps_of_checks _ (by decide), by decide⟩

/-- The reels that a shift, a copy and a PARTIAL shift leave keep their law. -/
theorem meets_the_reel_law :
    State.ReelsKept { shifting .conforming with cfu := some shiftInHand } ∧ (shifting .partly).ReelsKept
      ∧ (after (.reelCopy 1 2 48) (stage 5 [(0, cue 1 vals31 .ready), (1, cue 2 vals302 .done)] [0, 1])).ReelsKept :=
  ⟨reels_of_checks _ (by decide) (by decide) (by decide) (by decide) (by decide) (by decide),
    reels_of_checks _ (by decide) (by decide) (by decide) (by decide) (by decide) (by decide),
    reels_of_checks _ (by decide) (by decide) (by decide) (by decide) (by decide) (by decide)⟩

/-- An OPEN take before its out-point edge, which meets it in order. -/
theorem meets_the_take_law :
    taking.cst.lawful = true ∧ taking.PassesLawful ∧ taking.TakesKept ∧ taking.MetInOrder 89604
      ∧ runningEdge (edge 89604) = true ∧ taking.ReelsKept
      ∧ ((taking.cue 1 0).map fun c => c.takes.map fun x => x.result) = some [.opened] :=
  ⟨by decide, lawful_of_checks _ (by decide) (by decide) (by decide), takes_of_checks _ (by decide), met_of_checks _ _ (by decide),
    by decide, reels_of_checks _ (by decide) (by decide) (by decide) (by decide) (by decide) (by decide), by decide⟩
end

section
/-! The law of OPEN takes (R151) is not kept by a frame edge on which a pass closes at its staging edge. `State.MetInOrder`
asks that a pass at its staging edge hold no take yet, and that a take OPEN before the edge not be closed upon; the take that
the staging work of the edge itself reserves is in neither, and the clause has no premise on the frames of the pass
(`State.FramesKept`), so that the close frame may be the staging frame. -/

namespace Sys2Proof.Machine.EarlyClose

/-- A RECORD cue that is PASSING and has no take yet, with its line from frame 100 to frame 200. -/
def theCue : Cue :=
  { loop := 1
    vals := { inPt := 100, outPt := 200, char := 0, beeps := 0, spacing := 6, onTime := 0, tone := 23, streamer := 0,
              colour := 0, tail := 0, lines := 1, mode := .once }
    state := .passing .record, protect := false, waited := false, conformPending := false, nextTake := 1, takes := []
    pending := none }

/-- The context that serves the cue, in LEAD, with frame 99 as its close frame. -/
def theCtx : Ctx :=
  { reel := 0, slot := 0, loop := 1, kind := .record, phase := .lead, entry := 99, close := 99, late := false, granted := 0,
    held := 0, released := 0, take := none }

/-- A running edge of frame 99, the staging edge of the pass and its close. -/
def theEdge : FrameEdge :=
  { n := 99, dir := .forward, speed := 1000, inSpeed := true, jump := false, resume := false, state := .locked }

/-- The play reel, reel 0, with the one cue. -/
def theReel : Reel :=
  { Reel.reset with state := .opened, cues := [(0, theCue)], order := [0], earliest := some 100, latest := some 200 }

/-- The pass in flight, with the edge about to be taken. -/
def before : State :=
  { State.reset with
    pending := [.pscFrameEdge theEdge]
    cst := { CueStore.reset with reels := CueStore.reset.reels.set 0 theReel }
    psc := { Psc.reset with ctxs := Psc.reset.ctxs.set 0 (some theCtx) } }

/-- The part after the edge. -/
def after : State := ({ before with pending := [] }.taken (.pscFrameEdge theEdge)).edgeWork theEdge
  |> fun t => t.post [.laneReport (t.laneReport theEdge)]

theorem step_before : step before = .next after := rfl

theorem ctx_before (k : Fin 4) : before.ctx k = if k = 0 then some theCtx else none := by
  fin_cases k <;> rfl

theorem cue_before (r : Fin 8) (slot : Nat) : before.cue r slot = if r = 0 ∧ slot = 0 then some theCue else none := by
  by_cases h : r = 0
  · subst h
    by_cases h0 : slot = 0
    · subst h0; rfl
    · simpa [h0, before, State.cue, State.reel, Reel.cue, theReel, List.lookup] using by simp [beq_false_of_ne h0]
  · have : before.reel r = Reel.reset := by revert h; fin_cases r <;> decide
    simp [State.cue, this, h, Reel.cue, Reel.reset]

theorem passesLawful_before : before.PassesLawful := by
  refine ⟨fun k c h => ?_, fun j k c d hj hk _ => ?_, fun r slot cue hcue _ => ?_⟩
  · rw [ctx_before] at h
    split at h <;> cases h
    exact ⟨rfl, theCue, rfl, rfl, rfl⟩
  · rw [ctx_before] at hj hk
    split at hj <;> cases hj
    split at hk <;> cases hk
    simp_all
  · rw [cue_before] at hcue
    split at hcue
    · next h => exact ⟨0, theCtx, rfl, h.1.symm, h.2.symm⟩
    · cases hcue

/-- The edge meets the pass in order: it holds no take, and its cue has none. -/
theorem metInOrder_before : before.MetInOrder 99 := by
  intro k c cue hc hcue
  rw [ctx_before] at hc
  rw [cue_before] at hcue
  split at hc <;> cases hc
  split at hcue <;> cases hcue
  exact ⟨fun _ => rfl, fun ⟨x, hx, _⟩ => absurd hx (by simp [theCue])⟩

theorem takesKept_before : before.TakesKept := by
  intro r slot cue x hcue hx
  rw [cue_before] at hcue
  split at hcue <;> cases hcue
  simp [theCue] at hx

/-- The edge leaves the cue with the take it reserved, still OPEN, and no context ACTIVE. -/
theorem not_takesKept_after : ¬ after.TakesKept := by
  intro h
  have hcue : (after.cue 0 0).map (fun c => c.takes.map fun x => (x.number, x.result)) = some [(1, .opened)] := by decide
  have hctx : ∀ k : Fin 4, after.ctx k = none := by decide
  obtain ⟨cue, hc, htakes⟩ := Option.map_eq_some_iff.mp hcue
  obtain ⟨x, hx, hopen⟩ := List.map_eq_singleton_iff.mp htakes
  obtain ⟨k, c, hk, -⟩ := h 0 0 cue x hc (by simp [hx]) (by simpa using congrArg Prod.snd hopen)
  simp [hctx k] at hk

end Sys2Proof.Machine.EarlyClose

/-- Refutes O59: a RECORD pass in LEAD whose close frame is the frame before its in-point reserves its take on that edge and
is closed by it, which leaves the take OPEN with no context that names it. -/
theorem not_everyStepKeepsTheStoreAndPassLaws : ¬ Obligations.EveryStepKeepsTheStoreAndPassLaws := by
  unfold Obligations.EveryStepKeepsTheStoreAndPassLaws
  intro h
  obtain ⟨-, -, -, -, -, -, -, takes⟩ :=
    h _ _ Sys2Proof.Machine.EarlyClose.step_before (by decide)
  refine Sys2Proof.Machine.EarlyClose.not_takesKept_after
    (takes Sys2Proof.Machine.EarlyClose.passesLawful_before (fun e he _ => ?_) Sys2Proof.Machine.EarlyClose.takesKept_before)
  obtain rfl : Sys2Proof.Machine.EarlyClose.theEdge = e := by
    simpa [Sys2Proof.Machine.EarlyClose.before] using he
  exact Sys2Proof.Machine.EarlyClose.metInOrder_before
end

section
/-! What the two resets leave (R23, R24, R58, R82, R108, R117, R128, R147, R163, R164, R178), and that the laws hold at
power-on. -/

namespace Sys2Proof.Machine

/-! ## The reset values, part by part -/

theorem CueStore.reset_reels (r : Fin 8) : CueStore.reset.reels[r] = Reel.reset := by
  simp [CueStore.reset]

theorem Psc.reset_ctxs (k : Fin 4) : Psc.reset.ctxs[k] = none := by
  simp [Psc.reset]

theorem Ciu.reset_beats (k : Fin 4) : Ciu.reset.beats[k] = Beat.reset := by
  simp [Ciu.reset]

theorem Pch.reset_lines (k : Fin 8) : Pch.reset.lines[k] = Line.reset := by
  simp [Pch.reset]

theorem Pch.reset_staged (k : Fin 4) : Pch.reset.staged[k] = none := by
  simp [Pch.reset]

theorem State.reset_reel (r : Fin 8) : State.reset.reel r = Reel.reset := CueStore.reset_reels r

theorem State.reset_cue (r : Fin 8) (slot : Nat) : State.reset.cue r slot = none := by
  simp [State.cue, State.reset_reel, Reel.cue, Reel.reset]

theorem State.reset_ctx (k : Fin 4) : State.reset.ctx k = none := Psc.reset_ctxs k

/-- An EMPTY reel without cues keeps its law at every rate. -/
theorem Reel.reset_kept (rate : Rate) : Reel.reset.kept rate = true := rfl

end Sys2Proof.Machine

open Sys2Proof.Machine in
/-- Settles O3: each block takes its reset value, whatever the state. -/
theorem coldResetLeaves : Obligations.ColdResetLeaves := by
  intro s
  refine ⟨_, rfl, fun r => CueStore.reset_reels r, rfl, rfl, rfl, rfl, rfl, rfl, rfl, fun k => Psc.reset_ctxs k, rfl, rfl,
    fun k => Ciu.reset_beats k, rfl, rfl, rfl, rfl, rfl, fun k => ⟨Pch.reset_lines k, ?_⟩, fun k => Pch.reset_staged k, rfl,
    rfl, rfl, rfl, rfl, rfl⟩
  exact congrArg Line.output (Pch.reset_lines k)

open Sys2Proof.Machine in
/-- Settles O60: at power-on no reel holds a cue and no context is ACTIVE. -/
theorem lawsHoldAtReset : Obligations.LawsHoldAtReset := by
  refine ⟨by decide, by decide, by decide, by decide, by decide, ?passes, ?pending, ?pointer, ?frames, ?beeps, ?reels, ?takes,
    rfl⟩
  case passes =>
    refine ⟨fun k c h => ?_, fun j k c d h => ?_, fun r slot cue h => ?_⟩
    · simp [State.reset_ctx] at h
    · simp [State.reset_ctx] at h
    · simp [State.reset_cue] at h
  case pending => intro h; cases h
  case pointer => intro p h; cases h
  case frames => intro k c cue h; simp [State.reset_ctx] at h
  case beeps =>
    intro k c h
    have hb : State.reset.ciu.beats[k] = Beat.reset := Ciu.reset_beats k
    rw [hb] at h
    cases h
  case reels =>
    refine ⟨fun r => ?_, fun r source c h => ?_, fun r r' source c d h => ?_, fun source h => ?_, fun r => ?_,
      fun op h => by cases h⟩
    · rw [State.reset_reel]; exact Reel.reset_kept _
    · simp [State.reset_reel, Reel.reset] at h
    · simp [State.reset_reel, Reel.reset] at h
    · simp [State.reset_reel, Reel.reset] at h
    · rw [State.reset_reel]
      exact ⟨fun h => (by cases h), fun h => (by cases h)⟩
  case takes => intro r slot cue x h; simp [State.reset_cue] at h
end

section
/-! Reels whose cues take new in-use values (R2, R9, R11, R35, R38): slot tables and their keys, the strict order of live
slots, and what a chain of edits of different cues makes of a reel. -/

namespace Sys2Proof.Machine

/-! ## Slot tables -/

/-- A slot that is looked up stands in the table. -/
theorem Reel.mem_of_cue {r : Reel} {k : Nat} {c : Cue} (h : r.cue k = some c) : (k, c) ∈ r.cues := by
  unfold Reel.cue at h
  generalize r.cues = l at h ⊢
  induction l with
  | nil => simp at h
  | cons p rest ih =>
    obtain ⟨a, d⟩ := p
    rw [lookup_slot] at h
    split at h
    · next e => cases h; subst e; exact List.mem_cons_self
    · exact List.mem_cons_of_mem _ (ih h)

/-- In a table without a slot twice, what stands in it is looked up. -/
theorem Reel.cue_of_mem {r : Reel} {k : Nat} {c : Cue} (hn : (r.cues.map Prod.fst).Nodup) (h : (k, c) ∈ r.cues) :
    r.cue k = some c := by
  unfold Reel.cue
  generalize r.cues = l at hn h ⊢
  induction l with
  | nil => simp at h
  | cons p rest ih =>
    obtain ⟨a, d⟩ := p
    rw [List.map_cons, List.nodup_cons] at hn
    rw [lookup_slot]
    rcases List.mem_cons.mp h with e | hr
    · cases e; simp
    · have : k ≠ a := by
        rintro rfl
        exact hn.1 (List.mem_map.mpr ⟨(k, c), hr, rfl⟩)
      rw [if_neg this, ih hn.2 hr]

/-- Tables with the same slots and the same values of `g` in slot order give the same values of `g` slot by slot. -/
theorem lookup_map_eq {α : Type} (g : Cue → α) : ∀ {l l' : List (Nat × Cue)},
    l.map Prod.fst = l'.map Prod.fst → (l.map fun p => g p.2) = (l'.map fun p => g p.2) →
    ∀ k, (l.lookup k).map g = (l'.lookup k).map g
  | [], [], _, _, _ => rfl
  | (a, c) :: l, (b, d) :: l', hk, hg, k => by
    simp only [List.map_cons, List.cons.injEq] at hk hg
    obtain ⟨rfl, hk⟩ := hk
    obtain ⟨hd, hg⟩ := hg
    rw [lookup_slot, lookup_slot]
    split
    · simp [hd]
    · exact lookup_map_eq g hk hg k
  | [], _ :: _, hk, _, _ => by simp at hk
  | _ :: _, [], hk, _, _ => by simp at hk

/-- A change of one cue record that leaves `g` of it leaves the list of `g`. -/
theorem Reel.map_modCue {α : Type} (g : Nat × Cue → α) (slot : Nat) (f : Cue → Cue) (r : Reel)
    (h : ∀ c, (slot, c) ∈ r.cues → g (slot, f c) = g (slot, c)) : (r.modCue slot f).cues.map g = r.cues.map g := by
  unfold Reel.modCue
  rw [List.map_map]
  apply List.map_congr_left
  rintro ⟨a, c⟩ hm
  dsimp only [Function.comp]
  split
  · next e => subst e; exact h c hm
  · rfl

/-- The slots of a lawful reel are distinct. -/
theorem Reel.keys_nodup {r : Reel} (h : r.lawful = true) : (r.cues.map Prod.fst).Nodup := by
  simp only [Reel.lawful, Bool.and_eq_true, decide_eq_true_eq] at h
  exact h.1.1.imp Nat.ne_of_lt

/-- The order list of a lawful reel holds its live slots. -/
theorem Reel.order_perm {r : Reel} (h : r.lawful = true) : r.order.Perm (r.cues.map Prod.fst) := by
  simp only [Reel.lawful, Bool.and_eq_true, decide_eq_true_eq] at h
  exact h.2

theorem Reel.order_nodup {r : Reel} (h : r.lawful = true) : r.order.Nodup :=
  (Reel.order_perm h).nodup_iff.mpr (Reel.keys_nodup h)

/-- A slot stands in the order list of a lawful reel exactly when it is live. -/
theorem Reel.mem_order_iff {r : Reel} (h : r.lawful = true) (k : Nat) : k ∈ r.order ↔ (r.cue k).isSome = true := by
  rw [Reel.cue_isSome_iff, (Reel.order_perm h).mem_iff]

/-- The live slots of a lawful reel lie below 160, and its cues keep the law of their takes. -/
theorem Reel.lawful_cue {r : Reel} (h : r.lawful = true) {k : Nat} {c : Cue} (hc : r.cue k = some c) :
    k < 160 ∧ c.takesLawful = true := by
  simp only [Reel.lawful, Bool.and_eq_true, List.all_eq_true, decide_eq_true_eq] at h
  exact h.1.2 _ (Reel.mem_of_cue hc)

/-- Every reel of a lawful store is lawful. -/
theorem State.reel_lawful {s : State} (h : s.cst.lawful = true) (r : Fin 8) : (s.reel r).lawful = true := by
  simp only [CueStore.lawful, List.all_eq_true] at h
  exact h r (by fin_cases r <;> simp)

/-! ## The order of live slots (R9) -/

theorem Reel.before_iff (r : Reel) (a b : Nat) :
    r.before a b = true ↔ r.key a < r.key b ∨ (r.key a = r.key b ∧ r.loopAt a < r.loopAt b) := by
  simp [Reel.before]

theorem Reel.before_trans {r : Reel} {a b c : Nat} (h : r.before a b = true) (h' : r.before b c = true) :
    r.before a c = true := by
  rw [Reel.before_iff] at *
  omega

/-- Of two slots with different loop numbers one comes before the other. -/
theorem Reel.before_of_not {r : Reel} {a b : Nat} (h : r.before a b = false) (hl : r.loopAt a ≠ r.loopAt b) :
    r.before b a = true := by
  have hn : ¬ r.before a b = true := by simp [h]
  rw [Reel.before_iff] at *
  omega

/-- Live slots of a reel with distinct loop numbers have different loop numbers. -/
theorem Reel.loopAt_ne {r : Reel} (hd : r.loopsDistinct = true) {a b : Nat} (ha : (r.cue a).isSome = true)
    (hb : (r.cue b).isSome = true) (hne : a ≠ b) : r.loopAt a ≠ r.loopAt b := by
  obtain ⟨c, hc⟩ := Option.isSome_iff_exists.mp ha
  obtain ⟨d, hd'⟩ := Option.isSome_iff_exists.mp hb
  intro he
  simp only [Reel.loopAt, hc, hd', Option.elim_some] at he
  have hnd : (r.cues.map fun p => p.2.loop).Nodup := of_decide_eq_true hd
  have := List.inj_on_of_nodup_map hnd (Reel.mem_of_cue hc) (Reel.mem_of_cue hd') he
  exact hne (congrArg Prod.fst this)

theorem Reel.place_congr {y z : Reel} (h : y.before = z.before) (slot : Nat) (l : List Nat) :
    y.place slot l = z.place slot l := by
  induction l with
  | nil => rfl
  | cons a l ih => simp [Reel.place, h, ih]

/-- A live slot placed in a sorted list of other live slots leaves it sorted (R11). -/
theorem Reel.place_pairwise {r : Reel} {slot : Nat} {l : List Nat} (hs : l.Pairwise fun a b => r.before a b = true)
    (hl : ∀ x ∈ l, r.loopAt slot ≠ r.loopAt x) : (r.place slot l).Pairwise fun a b => r.before a b = true := by
  induction l with
  | nil => simp [Reel.place]
  | cons x rest ih =>
    rw [List.pairwise_cons] at hs
    unfold Reel.place
    split
    · next hb =>
      refine List.pairwise_cons.mpr ⟨fun y hy => ?_, List.pairwise_cons.mpr hs⟩
      rcases List.mem_cons.mp hy with rfl | hy
      · exact hb
      · exact Reel.before_trans hb (hs.1 y hy)
    · next hb =>
      refine List.pairwise_cons.mpr ⟨fun y hy => ?_, ih hs.2 fun y hy => hl y (List.mem_cons_of_mem _ hy)⟩
      rcases List.mem_cons.mp ((r.place_perm slot rest).mem_iff.mp hy) with rfl | hy
      · exact Reel.before_of_not (by simpa using hb) (hl x List.mem_cons_self)
      · exact hs.1 y hy

/-! ## Edits of cues -/

/-- What in-use values that take new ones leave of a reel, and where they put its order list. -/
theorem Reel.applyVals_rest (slot : Nat) (c : Cue) (v : CueVals) (r : Reel) :
    (r.applyVals slot c v).tag = r.tag ∧ (r.applyVals slot c v).state = r.state
      ∧ (r.applyVals slot c v).conform = r.conform
      ∧ (r.applyVals slot c v).cues
        = (r.modCue slot fun x => { x with vals := v, waited := x.waited && !(v.inPt != c.vals.inPt) }).cues := by
  unfold Reel.applyVals
  dsimp only
  split <;> split <;> exact ⟨rfl, rfl, rfl, rfl⟩

/-- Slot, loop number and conform-pending flag of every cue: what no edit of in-use values touches. -/
def Reel.labels (r : Reel) : List (Nat × Nat × Bool) := r.cues.map fun p => (p.1, p.2.loop, p.2.conformPending)

theorem Reel.labels_modCue (slot : Nat) (f : Cue → Cue) (r : Reel)
    (h : ∀ c, (f c).loop = c.loop ∧ (f c).conformPending = c.conformPending) : (r.modCue slot f).labels = r.labels :=
  r.map_modCue _ slot f fun c _ => by simp [h c]

theorem Reel.labels_applyVals (slot : Nat) (c : Cue) (v : CueVals) (r : Reel) :
    (r.applyVals slot c v).labels = r.labels := by
  unfold Reel.labels
  rw [(r.applyVals_rest slot c v).2.2.2]
  exact r.labels_modCue slot _ fun c => ⟨rfl, rfl⟩

theorem Reel.keys_of_labels {x y : Reel} (h : y.labels = x.labels) : y.cues.map Prod.fst = x.cues.map Prod.fst := by
  have := congrArg (List.map Prod.fst) h
  simpa [Reel.labels, Function.comp_def] using this

theorem Reel.isSome_of_labels {x y : Reel} (h : y.labels = x.labels) (k : Nat) :
    (y.cue k).isSome = true ↔ (x.cue k).isSome = true := by
  rw [Reel.cue_isSome_iff, Reel.cue_isSome_iff, Reel.keys_of_labels h]

theorem Reel.loopsDistinct_of_labels {x y : Reel} (h : y.labels = x.labels) : y.loopsDistinct = x.loopsDistinct := by
  have : y.cues.map (fun p => p.2.loop) = x.cues.map fun p => p.2.loop := by
    simpa [Reel.labels, Function.comp_def] using congrArg (List.map fun p => p.2.1) h
  simp [Reel.loopsDistinct, this]

/-- A reel in which cues of the slots `done` took new in-use values, each of them once, turned from `x` into `y` (R2, R9,
R11). -/
structure Reel.Edited (done : List Nat) (x y : Reel) : Prop where
  labels : y.labels = x.labels
  tag : y.tag = x.tag
  state : y.state = x.state
  conform : y.conform = x.conform
  perm : y.order.Perm x.order
  others : ∀ k ∉ done, (y.cue k).map (fun c => c.vals) = (x.cue k).map fun c => c.vals
  sorted : x.sorted = true → x.loopsDistinct = true → y.sorted = true
  orderKept : y.inPoints = x.inPoints → y.order = x.order
  points : if y.inPoints = x.inPoints ∧ y.outPoints = x.outPoints then y.earliest = x.earliest ∧ y.latest = x.latest
    else PointsOf y

/-- The clause on the header points sees the frames of the cues and the points alone. -/
theorem points_congr {x y z : Reel} (hin : z.inPoints = y.inPoints) (hout : z.outPoints = y.outPoints)
    (he : z.earliest = y.earliest) (hl : z.latest = y.latest)
    (h : if y.inPoints = x.inPoints ∧ y.outPoints = x.outPoints then y.earliest = x.earliest ∧ y.latest = x.latest
      else PointsOf y) :
    if z.inPoints = x.inPoints ∧ z.outPoints = x.outPoints then z.earliest = x.earliest ∧ z.latest = x.latest
      else PointsOf z := by
  have hp : PointsOf z ↔ PointsOf y := by
    unfold PointsOf
    rw [← Reel.inPoints, ← Reel.inPoints, ← Reel.outPoints, ← Reel.outPoints, hin, hout, he, hl]
  rw [hin, hout, he, hl, hp]
  exact h

theorem Reel.Edited.refl (x : Reel) : Reel.Edited [] x x :=
  { labels := rfl, tag := rfl, state := rfl, conform := rfl, perm := .refl _, others := fun _ _ => rfl,
    sorted := fun h _ => h, orderKept := fun _ => rfl, points := by simp }

theorem Reel.Edited.settled {done : List Nat} {x y : Reel} (h : Reel.Edited done x y) : ReelSettled x y :=
  ⟨h.perm, h.sorted, h.orderKept, h.tag, h.conform, h.points⟩

/-- A change of a record that keeps its values, loop number and conform-pending flag is no edit. -/
theorem Reel.Edited.modCue {done : List Nat} {x y : Reel} (h : Reel.Edited done x y) (slot : Nat) (f : Cue → Cue)
    (hf : ∀ c, (f c).vals = c.vals ∧ (f c).conformPending = c.conformPending ∧ (f c).loop = c.loop) :
    Reel.Edited done x (y.modCue slot f) := by
  have hin : (y.modCue slot f).inPoints = y.inPoints := y.map_modCue _ slot f fun c _ => by simp [hf c]
  have hout : (y.modCue slot f).outPoints = y.outPoints := y.map_modCue _ slot f fun c _ => by simp [hf c]
  refine { labels := ?_, tag := h.tag, state := h.state, conform := h.conform, perm := h.perm, others := fun k hk => ?_,
           sorted := fun hs hd => ?_, orderKept := fun hi => h.orderKept (hin ▸ hi), points := ?_ }
  · rw [y.labels_modCue slot f fun c => ⟨(hf c).2.2, (hf c).2.1⟩, h.labels]
  · rw [Reel.cue_modCue, ← h.others k hk]
    split
    · cases y.cue k <;> simp [hf]
    · rfl
  · unfold Reel.sorted
    rw [Reel.before_modCue slot f y hf]
    exact h.sorted hs hd
  · exact points_congr hin hout rfl rfl h.points

/-- The keys of the slots that an edit does not reach, and the loop numbers of all, stay. -/
theorem Reel.key_congr {x y : Reel} (hd : y.delta = x.delta) {k : Nat} (hk : y.cue k = x.cue k) : y.key k = x.key k := by
  unfold Reel.key
  rw [hk]
  cases x.cue k <;> simp [Reel.keyOf, hd]

theorem Reel.loopAt_applyVals (slot : Nat) (c : Cue) (v : CueVals) (r : Reel) : (r.applyVals slot c v).loopAt = r.loopAt := by
  funext k
  unfold Reel.loopAt
  rw [Reel.cue_applyVals]
  split
  · cases r.cue k <;> rfl
  · rfl

theorem Reel.key_applyVals_ne {slot k : Nat} (c : Cue) (v : CueVals) (r : Reel) (h : k ≠ slot) :
    (r.applyVals slot c v).key k = r.key k :=
  Reel.key_congr (by simp [Reel.delta, (r.applyVals_rest slot c v).2.2.1]) (by simp [Reel.cue_applyVals, h])

/-- With the same in-point the cue keeps its key. -/
theorem Reel.key_applyVals_same {slot : Nat} {c : Cue} {v : CueVals} {r : Reel} (hc : r.cue slot = some c)
    (hv : v.inPt = c.vals.inPt) : (r.applyVals slot c v).key = r.key := by
  funext k
  by_cases h : k = slot
  · subst h
    simp [Reel.key, Reel.cue_applyVals, hc, Reel.keyOf, Reel.delta, (r.applyVals_rest k c v).2.2.1, hv]
  · exact Reel.key_applyVals_ne c v r h

/-- An edit leaves a sorted order list sorted (R9, R11). -/
theorem Reel.sorted_applyVals {slot : Nat} {c : Cue} {v : CueVals} {r : Reel} (hc : r.cue slot = some c)
    (hd : r.loopsDistinct = true) (hn : r.order.Nodup) (hlive : ∀ k ∈ r.order, (r.cue k).isSome = true)
    (hs : r.sorted = true) : (r.applyVals slot c v).sorted = true := by
  have hs' : r.order.Pairwise fun a b => r.before a b = true := of_decide_eq_true hs
  have hl := r.loopAt_applyVals slot c v
  have ho := r.order_applyVals slot c v
  refine decide_eq_true ?_
  by_cases hv : v.inPt = c.vals.inPt
  · rw [if_pos hv] at ho
    rw [ho, Reel.before_congr (Reel.key_applyVals_same hc hv) hl]
    exact hs'
  · have hb : (v.inPt != c.vals.inPt) = true := by simpa using hv
    have hplace : (r.applyVals slot c v).order = (r.applyVals slot c v).place slot (r.order.erase slot) := by
      simp only [Reel.applyVals, hb, if_true, Bool.true_or]
      show Reel.place _ slot (r.order.erase slot) = _
      refine Reel.place_congr ?_ slot _
      rfl
    rw [hplace]
    refine Reel.place_pairwise ?_ fun k hk => ?_
    · refine (hs'.sublist List.erase_sublist).imp_of_mem fun {a b} ha hb h => ?_
      rw [Reel.before_iff] at *
      rw [hl, Reel.key_applyVals_ne c v r (fun e => by simp [e, hn.mem_erase_iff] at ha),
        Reel.key_applyVals_ne c v r (fun e => by simp [e, hn.mem_erase_iff] at hb)]
      exact h
    · obtain ⟨hne, hmem⟩ := hn.mem_erase_iff.mp hk
      rw [hl]
      exact Reel.loopAt_ne hd (by simp [hc]) (hlive k hmem) (Ne.symm hne)

theorem Reel.perm_applyVals {slot : Nat} (c : Cue) (v : CueVals) {r : Reel} (hm : slot ∈ r.order) :
    (r.applyVals slot c v).order.Perm r.order := by
  have ho := r.order_applyVals slot c v
  split at ho
  · rw [ho]
  · obtain ⟨k, -, h, -, -⟩ := ho
    rw [h]
    exact (List.perm_middle.trans (by rw [List.take_append_drop])).trans (List.perm_cons_erase hm).symm

/-- A list of one value of every cue is left by an edit that leaves this value of its cue. -/
theorem Reel.map_applyVals {α : Type} (g : CueVals → α) {slot : Nat} {c : Cue} {v : CueVals} {r : Reel}
    (hn : (r.cues.map Prod.fst).Nodup) (hc : r.cue slot = some c) (h : g v = g c.vals) :
    ((r.applyVals slot c v).cues.map fun p => g p.2.vals) = r.cues.map fun p => g p.2.vals := by
  rw [(r.applyVals_rest slot c v).2.2.2]
  refine r.map_modCue (fun p => g p.2.vals) slot _ fun d hd => ?_
  have := Reel.cue_of_mem hn hd
  rw [hc] at this
  cases this
  exact h

/-- And changed by one that changes it, whatever other cues are edited besides. -/
theorem Reel.map_applyVals_ne {α : Type} (g : CueVals → α) {slot : Nat} {c : Cue} {v : CueVals} {x y : Reel}
    (hk : y.labels = x.labels) (hx : (x.cue slot).map (fun d => d.vals) = some c.vals) (hv : g v ≠ g c.vals)
    (hy : (y.cue slot).map (fun d => d.vals) = some v) :
    (y.cues.map fun p => g p.2.vals) ≠ x.cues.map fun p => g p.2.vals := by
  intro he
  have := lookup_map_eq (fun c => g c.vals) (Reel.keys_of_labels hk) he slot
  have hx' := congrArg (Option.map g) hx
  have hy' := congrArg (Option.map g) hy
  simp only [Option.map_map, Function.comp_def, Option.map_some] at hx' hy'
  rw [show y.cues.lookup slot = y.cue slot from rfl, show x.cues.lookup slot = x.cue slot from rfl, hx', hy'] at this
  exact hv (Option.some.inj this)

/-- An edit of a cue that none of the edits before reached. -/
theorem Reel.Edited.applyVals {done : List Nat} {x y : Reel} (h : Reel.Edited done x y) (hx : x.lawful = true) {slot : Nat}
    {c : Cue} (v : CueVals) (hc : y.cue slot = some c) (hnew : slot ∉ done) :
    Reel.Edited (slot :: done) x (y.applyVals slot c v) := by
  have hkeys : (y.cues.map Prod.fst).Nodup := by
    rw [Reel.keys_of_labels h.labels]; exact Reel.keys_nodup hx
  have hnodup : y.order.Nodup := h.perm.nodup_iff.mpr (Reel.order_nodup hx)
  have hlive : ∀ k, k ∈ y.order ↔ (y.cue k).isSome = true := fun k => by
    rw [h.perm.mem_iff, Reel.mem_order_iff hx, Reel.isSome_of_labels h.labels]
  have hmem : slot ∈ y.order := (hlive slot).mpr (by simp [hc])
  have hxc : (x.cue slot).map (fun d => d.vals) = some c.vals := by rw [← h.others slot hnew, hc]; rfl
  have hyc : ((y.applyVals slot c v).cue slot).map (fun d => d.vals) = some v := by simp [Reel.cue_applyVals, hc]
  have hlab : (y.applyVals slot c v).labels = x.labels := (y.labels_applyVals slot c v).trans h.labels
  obtain ⟨htag, hstate, hconf, -⟩ := y.applyVals_rest slot c v
  refine { labels := hlab, tag := htag.trans h.tag, state := hstate.trans h.state, conform := hconf.trans h.conform,
           perm := (Reel.perm_applyVals c v hmem).trans h.perm, others := fun k hk => ?_, sorted := fun hs hd => ?_,
           orderKept := fun hi => ?_, points := ?_ }
  · obtain ⟨hne, hk⟩ := not_or.mp (fun e => hk (List.mem_cons.mpr e))
    rw [Reel.cue_applyVals, if_neg hne, h.others k hk]
  · exact Reel.sorted_applyVals hc ((Reel.loopsDistinct_of_labels h.labels).trans hd) hnodup (fun k hk => (hlive k).mp hk)
      (h.sorted hs hd)
  · have hv : v.inPt = c.vals.inPt := by
      by_contra hv
      exact Reel.map_applyVals_ne (·.inPt) hlab hxc hv hyc hi
    have ho := y.order_applyVals slot c v
    rw [if_pos hv] at ho
    rw [ho]
    exact h.orderKept ((Reel.map_applyVals (·.inPt) hkeys hc hv).symm.trans hi)
  · have hp := y.points_applyVals slot c v
    split at hp
    · next hv =>
      have hin : (y.applyVals slot c v).inPoints = y.inPoints := Reel.map_applyVals (·.inPt) hkeys hc hv.1
      have hout : (y.applyVals slot c v).outPoints = y.outPoints := Reel.map_applyVals (·.outPt) hkeys hc hv.2
      exact points_congr hin hout hp.1 hp.2 h.points
    · next hv =>
      rw [if_neg]
      · exact hp
      · rintro ⟨hi, ho⟩
        refine hv ⟨?_, ?_⟩
        · by_contra hne
          exact Reel.map_applyVals_ne (·.inPt) hlab hxc hne hyc hi
        · by_contra hne
          exact Reel.map_applyVals_ne (·.outPt) hlab hxc hne hyc ho

end Sys2Proof.Machine
end

section
/-! The warm reset: what it makes of every cue record, order list and header (R24, R38, R164), and what it leaves outside
them (R58, R82, R108, R117, R128, R147, R163, R178). -/

namespace Sys2Proof.Machine

/-! ## Cue records -/

/-- A cue record as a warm reset leaves it, `held` being the lines its context held (R24, R164). -/
def Cue.warmed (held : LineSet) (c : Cue) : Cue :=
  { c with
    vals := c.settledVals, pending := none, waited := false, takes := c.takes.map (Take.abort held),
    state := settleState false c.disarmed c.settledVals.mode c.state }

theorem Reel.cue_warmCue (held : LineSet) (slot k : Nat) (r : Reel) :
    (r.warmCue held slot).cue k = if k = slot then (r.cue k).map (Cue.warmed held) else r.cue k := by
  unfold Reel.warmCue
  split
  · next h => split <;> simp_all
  · next c h =>
    rw [Reel.cue_modCue, Reel.cue_applyVals]
    split
    · next e => subst e; simp [h, Cue.warmed]
    · rfl

/-- What the warm reset of one cue leaves of its reel. -/
theorem Reel.warmCue_rest (held : LineSet) (slot : Nat) (r : Reel) :
    (r.warmCue held slot).cues.map Prod.fst = r.cues.map Prod.fst ∧ (r.warmCue held slot).tag = r.tag
      ∧ (r.warmCue held slot).state = r.state ∧ (r.warmCue held slot).conform = r.conform := by
  unfold Reel.warmCue
  split
  · exact ⟨rfl, rfl, rfl, rfl⟩
  · next c _ =>
    obtain ⟨htag, hstate, hconf, -⟩ := r.applyVals_rest slot c c.settledVals
    exact ⟨(Reel.keys_modCue _ _ _).trans (Reel.keys_of_labels (r.labels_applyVals slot c c.settledVals)), htag, hstate, hconf⟩

/-- The warm reset of one cue that none of the edits before reached. -/
theorem Reel.Edited.warmCue {done : List Nat} {x y : Reel} (h : Reel.Edited done x y) (hx : x.lawful = true)
    (held : LineSet) {slot : Nat} (hnew : slot ∉ done) : Reel.Edited (slot :: done) x (y.warmCue held slot) := by
  unfold Reel.warmCue
  split
  · exact { h with others := fun k hk => h.others k fun e => hk (List.mem_cons_of_mem _ e) }
  · next c hc => exact (h.applyVals hx _ hc hnew).modCue slot _ fun d => ⟨rfl, rfl, rfl⟩

/-- The warm reset of the cues of several slots, each once. -/
theorem Reel.Edited.warmCues {x : Reel} (hx : x.lawful = true) (held : Nat → LineSet) : ∀ {slots done : List Nat} {y : Reel},
    Reel.Edited done x y → slots.Nodup → (∀ k ∈ slots, k ∉ done) →
    ∃ done', Reel.Edited done' x (slots.foldl (fun r slot => r.warmCue (held slot) slot) y)
  | [], done, y, h, _, _ => ⟨done, h⟩
  | slot :: slots, done, y, h, hn, hnew => by
    obtain ⟨hslot, hn⟩ := List.nodup_cons.mp hn
    rw [List.foldl_cons]
    refine Reel.Edited.warmCues hx held (h.warmCue hx (held slot) (hnew slot List.mem_cons_self)) hn fun k hk => ?_
    rw [List.mem_cons, not_or]
    exact ⟨fun e => hslot (e ▸ hk), hnew k (List.mem_cons_of_mem _ hk)⟩

theorem Reel.cue_warmCues (held : Nat → LineSet) (k : Nat) : ∀ (slots : List Nat) (r : Reel), slots.Nodup →
    (slots.foldl (fun r slot => r.warmCue (held slot) slot) r).cue k
      = if k ∈ slots then (r.cue k).map (Cue.warmed (held k)) else r.cue k
  | [], r, _ => by simp
  | slot :: slots, r, hn => by
    obtain ⟨hslot, hn⟩ := List.nodup_cons.mp hn
    rw [List.foldl_cons, Reel.cue_warmCues held k slots _ hn, Reel.cue_warmCue]
    by_cases e : k = slot
    · subst e; simp [hslot]
    · simp [e]

/-- Every cue record of a lawful reel is settled by a warm reset. -/
theorem Reel.cue_warm (held : Nat → LineSet) {r : Reel} (h : r.lawful = true) (k : Nat) :
    (r.warm held).cue k = (r.cue k).map (Cue.warmed (held k)) := by
  unfold Reel.warm
  rw [Reel.cue_warmCues held k _ r (Reel.keys_nodup h)]
  split
  · rfl
  · next hk =>
    rw [← Reel.cue_isSome_iff, Bool.not_eq_true, Option.isSome_eq_false_iff, Option.isNone_iff_eq_none] at hk
    rw [hk]; rfl

theorem Reel.warm_settled (held : Nat → LineSet) {r : Reel} (h : r.lawful = true) : ReelSettled r (r.warm held) := by
  obtain ⟨done, hd⟩ := (Reel.Edited.refl r).warmCues h held (Reel.keys_nodup h) fun k _ => List.not_mem_nil
  exact hd.settled

/-- What the warm reset of the cues of several slots leaves of any reel. -/
theorem Reel.warmCues_rest (held : Nat → LineSet) (slots : List Nat) (r : Reel) :
    let y := slots.foldl (fun r slot => r.warmCue (held slot) slot) r
    y.cues.map Prod.fst = r.cues.map Prod.fst ∧ y.tag = r.tag ∧ y.state = r.state ∧ y.conform = r.conform := by
  induction slots generalizing r with
  | nil => exact ⟨rfl, rfl, rfl, rfl⟩
  | cons slot slots ih =>
    obtain ⟨h1, h2, h3, h4⟩ := ih (r.warmCue (held slot) slot)
    obtain ⟨g1, g2, g3, g4⟩ := r.warmCue_rest (held slot) slot
    exact ⟨h1.trans g1, h2.trans g2, h3.trans g3, h4.trans g4⟩

/-! ## The reels of the store -/

theorem State.warm_reel (s : State) (r : Fin 8) : s.warm.reel r = leavePartial s.cfu r ((s.reel r).warm (s.heldFor r)) := by
  fin_cases r <;> rfl

/-- The target of an operation in hand turns PARTIAL, and nothing else of a reel changes (R58). -/
theorem leavePartial_eq (cfu : Option Operation) (i : Fin 8) (r : Reel) :
    leavePartial cfu i r = { r with state := if cfu.any (fun op => decide (op.target = i)) then .partly else r.state } := by
  unfold leavePartial
  cases cfu with
  | none => rfl
  | some op => by_cases h : op.target = i <;> simp [h]

theorem warmPunch_line (guardHigh : Bool) (p : Pch) (k : Fin 8) : (warmPunch guardHigh p).lines[k] = p.lines[k].out := by
  fin_cases k <;> rfl

end Sys2Proof.Machine

open Sys2Proof.Machine in
/-- Settles O4: each block takes the values its chapter gives; a reel is changed cue by cue, and its state alone where it is
the target of the operation in hand. -/
theorem warmResetLeaves : Obligations.WarmResetLeaves := by
  intro byLine s
  refine ⟨fun h => ?_, fun h => ?_, _, rfl, rfl, rfl, fun r => ?reels, rfl, rfl, rfl, rfl, fun k => Psc.reset_ctxs k, rfl, rfl,
    fun k => Ciu.reset_beats k, rfl, rfl, rfl, rfl, rfl, fun k => ?lines, fun k => Pch.reset_staged k, rfl, rfl, rfl, rfl, rfl,
    rfl, rfl, _, rfl, ?release⟩
  · show Host.Outcome.next (if s.board.resetLow then _ else s) = _
    rw [if_pos h]; rfl
  · show Host.Outcome.next (if s.board.resetLow then _ else s) = _
    rw [h]; rfl
  case reels =>
    show (s.warm.reel r).tag = _ ∧ (s.warm.reel r).count = _ ∧ (s.warm.reel r).conform = _ ∧ (s.warm.reel r).state = _
    obtain ⟨hkeys, htag, hstate, hconf⟩ := (s.reel r).warmCues_rest (s.heldFor r) ((s.reel r).cues.map Prod.fst)
    rw [State.warm_reel, leavePartial_eq]
    refine ⟨htag, ?_, hconf, ?_⟩
    · have := congrArg List.length hkeys
      rwa [List.length_map, List.length_map] at this
    · dsimp only
      rw [show ((s.reel r).warm (s.heldFor r)).state = (s.reel r).state from hstate]
  case lines =>
    have h := warmPunch_line s.board.guardHigh s.pch k
    exact ⟨h, (congrArg Line.output h).trans (Bool.false_xor _)⟩
  case release => cases hb : s.board.resetLow <;> cases byLine <;> simp <;> rfl

open Sys2Proof.Machine in
/-- Settles O5: the cues of a lawful reel are settled one by one, each once. -/
theorem warmResetSettlesCues : Obligations.WarmResetSettlesCues := by
  intro byLine s hs
  have hcue (r : Fin 8) (slot : Nat) : s.warm.cue r slot = (s.cue r slot).map (Cue.warmed (s.heldFor r slot)) := by
    unfold State.cue
    rw [State.warm_reel, leavePartial_eq]
    exact Reel.cue_warm _ (State.reel_lawful hs r) slot
  refine ⟨_, rfl, fun r => ?_, fun r slot => ⟨fun h => ?_, fun c h => ?_⟩⟩
  · show ReelSettled (s.reel r) (s.warm.reel r)
    rw [State.warm_reel, leavePartial_eq]
    exact Reel.warm_settled _ (State.reel_lawful hs r)
  · show s.warm.cue r slot = none
    rw [hcue, h]; rfl
  · show s.warm.cue r slot = _
    rw [hcue, h]
    have hstate : settleState false c.disarmed c.settledVals.mode c.state
        = if c.state.isPassing then
            if c.pending.any (fun p => p.disarm) then .ready else .armed (c.state.kind.getD .rehearse)
          else c.state := by
      cases hc : c.state <;> simp [settleState, CueState.isPassing, CueState.kind, Cue.disarmed]
    rw [Option.map_some, Cue.warmed, hstate]
    rfl
end

section
/-! What every command of the Cue Store shares: the answer of its owner, its checks, the named reel and the named cue (R1, R5,
R25 to R27). -/

namespace Sys2Proof.Machine

/-! ## States apart from the link -/

/-- States that agree on every piece of state outside the link are equal apart from it. -/
theorem State.apart_ext {s t : State} (hpending : t.pending = s.pending) (hpos : t.pos = s.pos) (hcst : t.cst = s.cst)
    (hcfu : t.cfu = s.cfu) (hpsc : t.psc = s.psc) (hciu : t.ciu = s.ciu) (hovl : t.ovl = s.ovl) (hpch : t.pch = s.pch)
    (hvgt : t.vgt = s.vgt) (hboard : t.board = s.board) (hraised : t.raised = s.raised) : t.apart = s.apart := by
  simp [State.apart, *]

/-- And conversely. -/
theorem State.fields_of_apart {s t : State} (h : t.apart = s.apart) : t.pending = s.pending ∧ t.pos = s.pos ∧ t.cst = s.cst
    ∧ t.cfu = s.cfu ∧ t.psc = s.psc ∧ t.ciu = s.ciu ∧ t.ovl = s.ovl ∧ t.pch = s.pch ∧ t.vgt = s.vgt ∧ t.board = s.board
    ∧ t.raised = s.raised := by
  simpa [State.apart, and_assoc] using h

/-! ## The answer of an owner -/

/-- The owner's event answers with the reply its work makes, and raises what its work raises. -/
theorem State.owner_answers {i : Instr} {f : State → State × Reply} {s t : State} {r : Result} {d : AnswerData}
    {ns : List Notice} (h : f s = (t, { result := r, data := d })) (hn : Noticed ns s t) :
    Answered i r d ns s (s.owner i f) := by
  have := (s.owner_answered i f ns (by rw [h]; exact hn)).1
  rwa [h] at this

/-- A command that its owner refuses changes nothing outside the link. -/
theorem State.owner_refused {i : Instr} {f : State → State × Reply} {s : State} {r : Result} (h : f s = refuse r s) :
    Refused i r s (s.owner i f) := by
  refine ⟨?_, State.owner_answers h (Noticed.refl s)⟩
  rw [State.owner_apart, h]; rfl

theorem State.owner_lastAnswer (i : Instr) (f : State → State × Reply) (s : State) :
    (s.owner i f).lastAnswer = some { kind := (kindOf i).getD 0, result := (f s).2.result, data := (f s).2.data } := by
  have (w : Bool) (u : State) : (u.settleTie w).lastAnswer = u.lastAnswer := (State.settleTie_keeps w u).2.2.2.2.2
  unfold State.owner State.deliver
  dsimp only
  split
  · rw [this]; simp
  · rfl

@[simp] theorem State.owner_reel (i : Instr) (f : State → State × Reply) (s : State) (r : Fin 8) :
    (s.owner i f).reel r = (f s).1.reel r := by
  simp [State.reel]

/-- The state `u` that the work of an owner leaves of `s`, with the answer to command `i` made. -/
def State.answers (i : Instr) (r : Result) (d : AnswerData) (s u : State) : State :=
  s.deliver i { kind := (kindOf i).getD 0, result := r, data := d } u

/-- What an owner's event comes to, once its work on the state is known. -/
theorem State.owner_eq {i : Instr} {f : State → State × Reply} {s u : State} {r : Result} {d : AnswerData}
    (h : f s = (u, { result := r, data := d })) : s.owner i f = State.answers i r d s u := by
  unfold State.owner State.answers
  rw [h]

/-- An answer made after work that raised the notices `ns`. -/
theorem State.answers_answered {i : Instr} {r : Result} {d : AnswerData} {ns : List Notice} {s u : State}
    (h : Noticed ns s u) : Answered i r d ns s (State.answers i r d s u) :=
  State.owner_answers (f := fun _ => (u, { result := r, data := d })) rfl h

section
variable (i : Instr) (r : Result) (d : AnswerData) (s u : State)

@[simp] theorem State.answers_apart : (State.answers i r d s u).apart = u.apart := by simp [State.answers]
@[simp] theorem State.answers_cst : (State.answers i r d s u).cst = u.cst := by simp [State.answers]
@[simp] theorem State.answers_psc : (State.answers i r d s u).psc = u.psc := by simp [State.answers]
@[simp] theorem State.answers_raised : (State.answers i r d s u).raised = u.raised := by simp [State.answers]
@[simp] theorem State.answers_reel (x : Fin 8) : (State.answers i r d s u).reel x = u.reel x := by simp [State.reel]
@[simp] theorem State.answers_cue (x : Fin 8) (slot : Nat) : (State.answers i r d s u).cue x slot = u.cue x slot := by
  simp [State.cue]
@[simp] theorem State.answers_ctx (k : Fin 4) : (State.answers i r d s u).ctx k = u.ctx k := by simp [State.ctx]

theorem State.answers_lastAnswer :
    (State.answers i r d s u).lastAnswer = some { kind := (kindOf i).getD 0, result := r, data := d } :=
  State.owner_lastAnswer i (fun _ => (u, { result := r, data := d })) s

end

/-! ## Reels and marks of a state -/

@[simp] theorem State.markIfPlay_reel (r r' : Fin 8) (s : State) : (s.markIfPlay r).reel r' = s.reel r' := by
  simp [State.reel]

@[simp] theorem State.raise_reel (n : Notice) (s : State) (r : Fin 8) : (s.raise n).reel r = s.reel r := by
  simp [State.reel]

@[simp] theorem State.post_reel (es : List Instr) (s : State) (r : Fin 8) : (s.post es).reel r = s.reel r := rfl
@[simp] theorem State.setCtx_reel (k : Fin 4) (c : Option Ctx) (s : State) (r : Fin 8) : (s.setCtx k c).reel r = s.reel r := rfl
@[simp] theorem State.post_ctx (es : List Instr) (s : State) (k : Fin 4) : (s.post es).ctx k = s.ctx k := rfl

/-- A change of one reel raises nothing. -/
theorem State.modReel_noticed (r : Fin 8) (f : Reel → Reel) (s : State) : Noticed [] s (s.modReel r f) :=
  Noticed.of_lnk rfl rfl rfl

theorem State.markIfPlay_noticed (r : Fin 8) (s : State) : Noticed [] s (s.markIfPlay r) :=
  Noticed.of_lnk (by simp) (by simp) (by simp)

/-- A change of one reel with the mark of R86 changes nothing but that reel and the mark. -/
theorem State.markIfPlay_modReel_onlyReels (r : Fin 8) (f : Reel → Reel) (s : State) :
    OnlyReels (s.psc.refind || decide (r = s.cst.playReel)) s ((s.modReel r f).markIfPlay r) :=
  State.apart_ext (by simp) (by simp) (by simp [State.modReel]) (by simp) (by rw [State.markIfPlay_psc]; rfl) (by simp)
    (by simp) (by simp) (by simp) (by simp) (by simp)

/-! ## Reel codes and contexts -/

theorem reelOf_val (code : Byte) : (reelOf code).map Fin.val = if code.toNat ≤ 7 then some code.toNat else none := by
  unfold reelOf
  split
  · next h => rw [if_pos (by omega)]; rfl
  · next h => rw [if_neg (by omega)]; rfl

theorem reelOf_of_lt {code : Byte} (h : 7 < code.toNat) : reelOf code = none := by
  unfold reelOf
  rw [dif_neg (by omega)]

theorem withReel_none {code : Byte} (h : reelOf code = none) (f : Fin 8 → State → State × Reply) (s : State) :
    withReel code f s = refuse .badField s := by
  simp [withReel, h]

theorem withReel_some {code : Byte} {r : Fin 8} (h : reelOf code = some r) (f : Fin 8 → State → State × Reply) (s : State) :
    withReel code f s = f r s := by
  simp [withReel, h]

/-- A defined form of REEL_SELECT that names a reel acts on it. -/
theorem withForm_withReel {code : Byte} {r : Fin 8} (h : reelOf code = some r) (f : Fin 8 → State → State × Reply)
    (s : State) : withForm none (withReel code f) s = f r s :=
  withReel_some h f s

theorem withForm_withReel_none {code : Byte} (h : reelOf code = none) (f : Fin 8 → State → State × Reply) (s : State) :
    withForm none (withReel code f) s = refuse .badField s :=
  withReel_none h f s

theorem State.allFree_iff (s : State) : s.allFree = true ↔ ∀ k : Fin 4, s.ctx k = none := by
  simp only [State.allFree, List.all_eq_true, Option.isNone_iff_eq_none]
  exact ⟨fun h k => h k (by fin_cases k <;> simp), fun h k _ => h k⟩

/-! ## Checks of the cue commands -/

theorem loopOk_iff (loop : BitVec 16) : loopOk loop = true ↔ 1 ≤ loop.toNat ∧ loop.toNat ≤ 9999 := by
  simp [loopOk]

theorem cueChecks_badField {cmd : CueCommand} {ok : Bool} (h : ok = false) (f : State → State × Reply) (s : State) :
    cueChecks cmd ok f s = refuse .badField s := by
  simp [cueChecks, h]

theorem cueChecks_reel {cmd : CueCommand} {ok : Bool} {s : State} {r : Result} (h : ok = true)
    (hr : reelRefusal cmd s.editReel.state = some r) (f : State → State × Reply) : cueChecks cmd ok f s = refuse r s := by
  simp [cueChecks, h, hr]

theorem cueChecks_pass {cmd : CueCommand} {ok : Bool} {s : State} (h : ok = true)
    (hr : reelRefusal cmd s.editReel.state = none) (f : State → State × Reply) : cueChecks cmd ok f s = f s := by
  simp [cueChecks, h, hr]

/-- A cue command is refused by its first checks, or does the rest. -/
theorem cueChecks_cases (cmd : CueCommand) (ok : Bool) (f : State → State × Reply) (s : State) :
    (∃ r, cueChecks cmd ok f s = refuse r s) ∨ cueChecks cmd ok f s = f s := by
  unfold cueChecks
  split
  · split
    · exact .inl ⟨_, rfl⟩
    · exact .inr rfl
  · exact .inl ⟨_, rfl⟩

/-- A command that names a cue is refused, or acts on a live cue of the edit reel. -/
theorem withCue_cases (loop : BitVec 16) (f : Nat → Cue → State → State × Reply) (s : State) :
    (∃ r, withCue loop f s = refuse r s) ∨ ∃ slot c, s.editReel.cue slot = some c ∧ withCue loop f s = f slot c s := by
  unfold withCue
  split
  · exact .inl ⟨_, rfl⟩
  · split
    · exact .inl ⟨_, rfl⟩
    · next c h => exact .inr ⟨_, c, h, rfl⟩

/-- The cue found stands in its slot. -/
theorem State.cue_of_found {s : State} (hs : s.cst.lawful = true) {loop : BitVec 16} {p : Nat × Cue}
    (h : s.found loop = some p) : s.cue s.cst.editReel p.1 = some p.2 :=
  Reel.cue_of_mem (Reel.keys_nodup (State.reel_lawful hs _)) (List.mem_of_find?_eq_some h)

theorem withCue_none {s : State} {loop : BitVec 16} (h : s.found loop = none) (f : Nat → Cue → State → State × Reply) :
    withCue loop f s = refuse .noSuchCue s := by
  simp only [withCue, Reel.slotOf]
  rw [show s.editReel.cues.find? _ = none from h]
  rfl

theorem withCue_some {s : State} (hs : s.cst.lawful = true) {loop : BitVec 16} {p : Nat × Cue} (h : s.found loop = some p)
    (f : Nat → Cue → State → State × Reply) : withCue loop f s = f p.1 p.2 s := by
  have hc : s.editReel.cue p.1 = some p.2 := State.cue_of_found hs h
  simp only [withCue, Reel.slotOf]
  rw [show s.editReel.cues.find? _ = some p from h]
  simp only [Option.map_some, hc]

end Sys2Proof.Machine
end

section
/-! The reel commands and the lookups (R3, R5 to R7, R20 to R22). -/

namespace Sys2Proof.Machine

/-- The switch of the play reel raises REEL_SWITCHED. -/
theorem State.switchPlay_noticed (r : Fin 8) (s : State) (h : s.lnk.roomFor 1) :
    Noticed [.reelSwitched r] s (s.switchPlay r) :=
  (Noticed.of_lnk rfl rfl rfl).trans (State.raise_noticed _ _ h)

theorem State.switchPlay_apart (r : Fin 8) (s : State) : (s.switchPlay r).apart =
    { s with cst := { s.cst with playReel := r, pendingPlay := none }, psc := { s.psc with refind := true } }.apart := by
  simp [State.switchPlay]

/-- The retirement of a pass touches no reel. -/
@[simp] theorem State.retireCtx_reel (k : Fin 4) (s : State) (r : Fin 8) : (s.retireCtx k).reel r = s.reel r := by
  unfold State.retireCtx
  split
  · rfl
  · simp [State.freeCtx, State.raiseEnd]

/-- A retirement removes the cue from the edit reel and touches no other. -/
theorem State.retireCue_reel (slot : Nat) (c : Cue) (s : State) (r : Fin 8) : (s.retireCue slot c).reel r =
    if r = s.cst.editReel then (s.reel r).remove slot else s.reel r := by
  unfold State.retireCue
  dsimp only
  rw [State.markIfPlay_reel, State.reel_modReel]
  split
  · next h => subst h; split <;> (try split) <;> simp
  · split <;> (try split) <;> simp

theorem Reel.remove_tag (slot : Nat) (r : Reel) : (r.remove slot).tag = r.tag := by
  unfold Reel.remove; dsimp only; split <;> rfl

/-- A clear keeps the tag of every reel (R60). -/
theorem State.clearReel_tag (r r' : Fin 8) (s : State) : ((s.clearReel r).reel r').tag = (s.reel r').tag := by
  have hclear : ((s.modReel r Reel.cleared).reel r').tag = (s.reel r').tag := by
    rw [State.reel_modReel]; split
    · next h => subst h; rfl
    · rfl
  have hsource (conf : Option ConformRecord) (u : State) : ((u.releaseSource conf).reel r').tag = (u.reel r').tag := by
    unfold State.releaseSource
    split
    · rw [State.reel_modReel]; split
      · next h => subst h; rfl
      · rfl
    · rfl
    · rfl
  unfold State.clearReel
  dsimp only
  split
  · rw [hsource, hclear]
  · rw [State.markIfPlay_reel, hsource, hclear]

theorem execReelClear_tag (s : State) (r : Fin 8) :
    ∃ t, exec .reelClear s = .next t ∧ (t.reel r).tag = (s.reel r).tag := by
  refine ⟨_, rfl, ?_⟩
  rw [State.owner_reel]
  dsimp only
  split
  · rfl
  · rfl
  · rfl
  all_goals
    split
    · rfl
    · exact s.clearReel_tag _ r

theorem execCueRetire_tag (loop : BitVec 16) (s : State) (r : Fin 8) :
    ∃ t, exec (.cueRetire loop) s = .next t ∧ (t.reel r).tag = (s.reel r).tag := by
  refine ⟨_, rfl, ?_⟩
  rw [State.owner_reel]
  obtain ⟨x, h⟩ | h := cueChecks_cases .edit (loopOk loop) (withCue loop fun slot c s =>
      if c.protect then refuse .protectedCue s else (s.retireCue slot c, { result := .done })) s
  · rw [h]; rfl
  · rw [h]
    obtain ⟨x, h⟩ | ⟨slot, c, -, h⟩ := withCue_cases loop (fun slot c s =>
      if c.protect then refuse .protectedCue s else (s.retireCue slot c, { result := .done })) s
    · rw [h]; rfl
    · rw [h]
      split
      · rfl
      · rw [State.retireCue_reel]
        split
        · exact Reel.remove_tag _ _
        · rfl

end Sys2Proof.Machine

open Sys2Proof.Machine in
/-- Settles O24: the play form by whether a context is ACTIVE and whether the reel named is the play reel. -/
theorem reelSelectorsFollow : Obligations.ReelSelectorsFollow := by
  intro code form s room
  refine ⟨reelOf_val code, ⟨_, rfl, fun h => ?_, fun r h => ?_⟩, ⟨_, rfl, State.owner_refused rfl⟩, _, rfl, fun h => ?_,
    fun r h => ?_⟩
  · exact State.owner_refused (withReel_none h _ s)
  · refine ⟨?_, State.owner_answers (withReel_some h _ s) (Noticed.of_lnk rfl rfl rfl)⟩
    rw [State.owner_apart, withReel_some h]
  · exact State.owner_refused (withReel_none h _ s)
  · have hdo : withForm none (withReel code State.selectPlay) s = s.selectPlay r := withForm_withReel h _ s
    rw [State.owner_apart, hdo]
    by_cases hfree : ∀ k : Fin 4, s.ctx k = none
    · have hf : s.allFree = true := s.allFree_iff.mpr hfree
      rw [if_pos hfree]
      by_cases hr : r = s.cst.playReel
      · have hd : s.selectPlay r = (s, { result := .done }) := by simp [State.selectPlay, hf, hr]
        rw [if_pos hr, hd]
        exact ⟨rfl, State.owner_answers (hdo.trans hd) (Noticed.refl s)⟩
      · have hd : s.selectPlay r = (s.switchPlay r, { result := .done }) := by simp [State.selectPlay, hf, hr]
        rw [if_neg hr, hd]
        exact ⟨s.switchPlay_apart r, State.owner_answers (hdo.trans hd) (s.switchPlay_noticed r room)⟩
    · have hf : s.allFree = false := by simpa using mt s.allFree_iff.mp hfree
      rw [if_neg hfree]
      by_cases hr : r = s.cst.playReel
      · have hd : s.selectPlay r = ({ s with cst := { s.cst with pendingPlay := none } }, { result := .done }) := by
          simp [State.selectPlay, hf, hr]
        rw [if_pos hr, hd]
        exact ⟨rfl, State.owner_answers (hdo.trans hd) (Noticed.of_lnk rfl rfl rfl)⟩
      · have hd : s.selectPlay r = ({ s with cst := { s.cst with pendingPlay := some r } }, { result := .pending }) := by
          simp [State.selectPlay, hf, hr]
        rw [if_neg hr, hd]
        exact ⟨rfl, State.owner_answers (hdo.trans hd) (Noticed.of_lnk rfl rfl rfl)⟩

open Sys2Proof.Machine in
/-- Settles O25: the tag form changes one tag, and no retirement, clear or warm reset changes any. -/
theorem reelTagsAreKept : Obligations.ReelTagsAreKept := by
  intro code form tag loop byLine s
  refine ⟨⟨_, rfl, State.owner_refused rfl⟩, ⟨_, rfl, fun h => ?_, fun r h => ?tag⟩, ⟨_, rfl, fun r h => ⟨?info, rfl⟩⟩, ?retire,
    ?clear, ⟨_, rfl, fun r => ?warm⟩, _, rfl, fun r => congrArg Reel.tag (CueStore.reset_reels r)⟩
  · exact State.owner_refused (withForm_withReel_none (reelOf_of_lt h) _ s)
  case tag =>
    have hdo := withForm_withReel h (fun r s => (s.modReel r fun x => { x with tag := tag }, { result := .done })) s
    refine ⟨?_, ⟨?_, fun r' hr => ?_⟩, State.owner_answers hdo (State.modReel_noticed _ _ _)⟩
    · unfold OnlyReels
      rw [State.owner_apart, State.owner_cst, hdo]; rfl
    · rw [State.owner_reel, hdo]; simp
    · rw [State.owner_reel, hdo]; simp [hr]
  case info =>
    rw [State.owner_lastAnswer, withReel_some h]; rfl
  case retire =>
    exact ⟨_, rfl, fun r => by obtain ⟨t, ht, h⟩ := execCueRetire_tag loop s r; cases ht; exact h⟩
  case clear =>
    exact ⟨_, rfl, fun r => by obtain ⟨t, ht, h⟩ := execReelClear_tag s r; cases ht; exact h⟩
  case warm =>
    show (s.warm.reel r).tag = _
    rw [State.warm_reel, leavePartial_eq]
    exact ((s.reel r).warmCues_rest (s.heldFor r) ((s.reel r).cues.map Prod.fst)).2.1

open Sys2Proof.Machine in
/-- Settles O26: each lookup by its checks; the answer holds the reel or the record as it stands. -/
theorem lookupsReadTheReels : Obligations.LookupsReadTheReels := by
  intro code loop label s hs
  refine ⟨⟨_, rfl, fun h => ?_, fun r h => ?_⟩, ⟨_, rfl, ?read⟩, _, rfl, fun h => ?_, fun n h => ⟨fun hall => ?_, fun slot hf c hc => ?_⟩⟩
  · exact State.owner_refused (withReel_none h _ s)
  · refine ⟨?_, State.owner_answers (withReel_some h _ s) (Noticed.refl s)⟩
    rw [State.owner_apart, withReel_some h]
  case read =>
    by_cases hl : 1 ≤ loop.toNat ∧ loop.toNat ≤ 9999
    · have hok := (loopOk_iff loop).mpr hl
      rw [if_pos hl]
      refine ⟨fun h => State.owner_refused ?_, fun p h => ?_⟩
      · simp only [hok, if_true]
        exact withCue_none h _
      · have hdo : (if loopOk loop then withCue loop (fun _ c s => (s, s.readCue c)) s else refuse .badField s)
            = (s, s.readCue p.2) := by
          rw [if_pos hok, withCue_some hs h]
        refine ⟨?_, State.owner_answers hdo (Noticed.refl s)⟩
        rw [State.owner_apart, hdo]
    · have hok : ¬ loopOk loop = true := mt (loopOk_iff loop).mp hl
      rw [if_neg hl]
      exact State.owner_refused (if_neg hok)
  · exact State.owner_refused (by simp only [h])
  · refine State.owner_refused ?_
    have : s.editReel.nextCue n = none := by
      simp only [Reel.nextCue]
      rw [List.find?_eq_none.mpr]
      · rfl
      · intro slot hm
        simpa using hall slot hm
    simp only [h, this]
  · have hnext : s.editReel.nextCue n = some c := by
      simp only [Reel.nextCue]
      rw [hf]; exact hc
    have hdo : (match label.frame s.pos.rate with
        | none => refuse .badTimecode s
        | some n =>
          match s.editReel.nextCue n with
          | none => refuse .noSuchCue s
          | some c => (s, s.readCue c)) = (s, s.readCue c) := by
      simp only [h, hnext]
    refine ⟨?_, State.owner_answers hdo (Noticed.refl s), ?_⟩
    · rw [State.owner_apart]
      exact congrArg (fun x => x.1.apart) hdo
    · simp only [Reel.key, hc, Option.elim_some, Reel.keyOf]
      split <;> simp
end

section
/-! CUE_WRITE and CUE_AMEND (R28 to R36): the values as given and clamped, the slot and the place of a new cue, the effect of
an accepted amend. -/

namespace Sys2Proof.Machine

/-! ## Coded values and labels -/

theorem modeOf_of_le {m : Byte} (h : m.toNat ≤ 1) : modeOf m = some (if m = 0 then .once else .cycle) := by
  unfold modeOf
  by_cases h0 : m = 0
  · rw [if_pos h0, if_pos h0]
  · have h1 : m = 1 := by
      apply BitVec.eq_of_toNat_eq
      have : m.toNat ≠ 0 := fun e => h0 (BitVec.eq_of_toNat_eq e)
      have : (1 : Byte).toNat = 1 := rfl
      omega
    rw [if_neg h0, if_neg h0, if_pos h1]

theorem Label.frame_of_valid {l : Label} {rate : Rate} (h : l.valid rate = true) : l.frame rate = some (l.number rate) :=
  if_pos h

theorem optFrame_of_valid {rate : Rate} {l : Option Label} (h : l.all (fun l => l.valid rate) = true) :
    optFrame rate l = some (l.map fun l => l.number rate) := by
  cases l with
  | none => rfl
  | some l => simp [optFrame, Label.frame_of_valid (by simpa using h)]

theorem optMode_of_le {m : Option Byte} (h : m.all (fun m => m.toNat ≤ 1) = true) :
    optMode m = some (m.map fun m => if m = 0 then .once else .cycle) := by
  cases m with
  | none => rfl
  | some m => simp [optMode, modeOf_of_le (by simpa using h)]

/-! ## Clamped values, in the words of Table 2-2 -/

theorem clampBeeps_eq (n : Nat) : clampBeeps n = if 4 < n then 4 else n := by
  unfold clampBeeps; split <;> omega

theorem clampSpacing_eq (n : Nat) : clampSpacing n = if n < 6 then 6 else if 60 < n then 60 else n := by
  unfold clampSpacing; split <;> (try split) <;> omega

theorem clampTone_eq (n : Nat) : clampTone n = if n < 23 then 23 else if 239 < n then 239 else n := by
  unfold clampTone; split <;> (try split) <;> omega

theorem clampStreamer_eq (n : Nat) : clampStreamer n = if 1 ≤ n ∧ n ≤ 11 then 12 else if 240 < n then 240 else n := by
  unfold clampStreamer
  by_cases h0 : n = 0
  · simp [h0]
  · by_cases h1 : n < 12
    · rw [if_neg h0, if_pos h1, if_pos (by omega)]
    · rw [if_neg h0, if_neg h1, if_neg (by omega)]
      split <;> omega

theorem clampColour_eq (n : Nat) : clampColour n = if 7 < n then 7 else n := by
  unfold clampColour; split <;> omega

theorem clampTail_eq (n : Nat) : clampTail n = if 240 < n then 240 else n := by
  unfold clampTail; split <;> omega

theorem min_limit_eq (n limit : Nat) : min n limit = if limit < n then limit else n := by
  split <;> omega

/-- A CUE_WRITE brings a value into range exactly when it stores one that was not given (R28). -/
theorem writeClamped_iff (f : CueFields) (i o : Nat) (mode : Mode) : writeClamped f = true ↔
    ¬ ((storedVals f i o mode).beeps = f.beeps.toNat ∧ (storedVals f i o mode).spacing = f.spacing.toNat
      ∧ (storedVals f i o mode).onTime = f.onTime.toNat ∧ (storedVals f i o mode).tone = f.tone.toNat
      ∧ (storedVals f i o mode).streamer = f.streamer.toNat ∧ (storedVals f i o mode).colour = f.colour.toNat
      ∧ (storedVals f i o mode).tail = f.tail.toNat) := by
  have hlimit : onTimeLimit (clampSpacing f.spacing.toNat) < f.onTime.toNat
      ↔ ¬ min f.onTime.toNat (onTimeLimit (clampSpacing f.spacing.toNat)) = f.onTime.toNat := by omega
  simp only [writeClamped, storedVals, Bool.or_eq_true, bne_iff_ne, ne_eq, decide_eq_true_eq, hlimit, not_and_or, or_assoc]

/-! ## A new cue -/

theorem Reel.cue_none_iff (r : Reel) (k : Nat) : r.cue k = none ↔ (r.cues.all fun p => p.1 != k) = true := by
  rw [← Option.isNone_iff_eq_none, ← Option.isSome_eq_false_iff, ← Bool.not_eq_true, Reel.cue_isSome_iff]
  simp only [List.mem_map, List.all_eq_true, bne_iff_ne, ne_eq, not_exists, not_and]

/-- The lowest free slot (R1). -/
theorem Reel.freeSlot_eq {r : Reel} {slot : Nat} (hfree : r.cue slot = none) (hlow : ∀ k < slot, (r.cue k).isSome = true)
    (hlt : slot < 160) : r.freeSlot = some slot := by
  refine List.find?_range_eq_some.mpr ⟨(r.cue_none_iff slot).mp hfree, List.mem_range.mpr hlt, fun k hk => ?_⟩
  have h := hlow k hk
  rw [Bool.not_eq_true', ← Bool.not_eq_true, ← r.cue_none_iff k]
  intro e
  simp [e] at h

theorem insertSlot_length (slot : Nat) (c : Cue) (l : List (Nat × Cue)) : (insertSlot slot c l).length = l.length + 1 := by
  induction l with
  | nil => rfl
  | cons p rest ih =>
    unfold insertSlot
    split
    · rfl
    · simp [ih]

/-- A created cue stands at its place of the order list, judged by the keys of the reel as it then is (R11). -/
theorem Reel.create_joined (slot : Nat) (c : Cue) (r : Reel) : JoinedOrder slot r.order (r.create slot c) :=
  Reel.joinOrder_joined slot { r with cues := insertSlot slot c r.cues }

/-! ## An amend -/

/-- A value the cue will run on is the given one, or else the one it would run on without the amend (R33). -/
theorem EditVals.over_merge (g p : EditVals) (v : CueVals) : (g.merge p).over v = g.over (p.over v) := by
  simp [EditVals.over, EditVals.merge, Option.getD_or]

/-- What a CUE_WRITE that passes its checks does (R30, R31). -/
theorem State.writeCue_eq {loop : Nat} {slot : Nat} {s : State} (v : CueVals) (clamped : Bool)
    (hnew : ∀ p ∈ s.editReel.cues, p.2.loop ≠ loop) (hroom : s.editReel.cues.length < 160)
    (hslot : s.editReel.freeSlot = some slot) : s.writeCue loop v clamped =
      ((s.modReel s.cst.editReel (Reel.write slot (newCue loop v))).markIfPlay s.cst.editReel, doneOr clamped) := by
  have hloop : s.editReel.slotOf loop = none := by
    rw [Reel.slotOf, List.find?_eq_none.mpr]
    · rfl
    · intro p hp; simpa using hnew p hp
  have hcount : ¬ Config.slotsPerReel ≤ s.editReel.count := by
    rw [Reel.count, Config.slotsPerReel]; omega
  unfold State.writeCue
  rw [hloop, if_neg (by simp), if_neg hcount, hslot]

/-- In-use values that take new ones change reels alone, and the mark where the in-point of a cue of the play reel is
another. -/
theorem State.applyVals_onlyReels (r : Fin 8) (slot : Nat) (c : Cue) (v : CueVals) (s : State) :
    OnlyReels (s.psc.refind || (decide (v.inPt ≠ c.vals.inPt) && decide (r = s.cst.playReel))) s (s.applyVals r slot c v) := by
  unfold State.applyVals
  by_cases h : v.inPt = c.vals.inPt
  · simp [h]; rfl
  · have hb : (v.inPt != c.vals.inPt) = true := by simpa using h
    simpa [hb, h] using State.markIfPlay_modReel_onlyReels r (Reel.applyVals slot c v) s

end Sys2Proof.Machine

open Sys2Proof.Machine in
/-- Settles O29: the cue is created in the lowest free slot, and the header recomputed over the new table. -/
theorem cueWriteCreatesTheCue : Obligations.CueWriteCreatesTheCue := by
  intro loop f slot s hlo hhi hmode hreel hin hout hlt hnew hroom _ hfree hlow hslot
  let mode : Mode := if f.mode = 0 then .once else .cycle
  let stored := storedVals f (f.inPt.number s.pos.rate) (f.outPt.number s.pos.rate) mode
  let made := Reel.write slot (newCue loop.toNat stored)
  let u := (s.modReel s.cst.editReel made).markIfPlay s.cst.editReel
  have hrefusal : reelRefusal .edit s.editReel.state = none := by rcases hreel with h | h <;> rw [h] <;> rfl
  refine ⟨State.answers (.cueWrite loop f) (if writeClamped f then .adjusted else .done) .nothing s u,
    congrArg Host.Outcome.next (State.owner_eq ?work), ?_⟩
  case work =>
    rw [modeOf_of_le hmode]
    dsimp only
    rw [cueChecks_pass ((loopOk_iff loop).mpr ⟨hlo, hhi⟩) hrefusal]
    simp only [State.writeChecked, Label.frame_of_valid hin, Label.frame_of_valid hout, hlt, if_true]
    rw [State.writeCue_eq _ _ hnew hroom (Reel.freeSlot_eq hfree hlow hslot)]
    rfl
  intro e spacing v given c
  have hv : stored = v := by
    simp only [stored, storedVals, onTimeLimit, clampBeeps_eq, clampSpacing_eq, clampTone_eq, clampStreamer_eq,
      clampColour_eq, clampTail_eq, min_limit_eq]
    rfl
  have hgiven : (if writeClamped f then Result.adjusted else .done) = if given then .done else .adjusted := by
    have h : writeClamped f = true ↔ ¬ given = true := by
      rw [writeClamped_iff f (f.inPt.number s.pos.rate) (f.outPt.number s.pos.rate) mode, decide_eq_true_iff, ← hv]
    by_cases hg : given = true
    · rw [if_neg (fun hw => h.mp hw hg), if_pos hg]
    · rw [if_pos (h.mpr hg), if_neg hg]
  have hu (r : Fin 8) : u.reel r = if r = e then made (s.reel e) else s.reel r := by
    rw [State.markIfPlay_reel, State.reel_modReel]
  have hcue (k : Nat) : (made (s.reel e)).cue k = if k = slot then some c else (s.reel e).cue k := by
    exact (Reel.cue_create slot k _ (s.reel e) hfree).trans (by rw [hv]; rfl)
  rw [hgiven]
  refine ⟨?_, ?_, ?_, ?_, ?_, ?_, ?_, ?_, ?_, ?_,
    State.answers_answered ((State.modReel_noticed _ _ _).trans (State.markIfPlay_noticed _ _))⟩
  · unfold OnlyReels
    rw [State.answers_apart, State.answers_cst]
    exact State.markIfPlay_modReel_onlyReels e made s
  · intro r hr
    rw [State.answers_reel, hu, if_neg hr]
  · rw [State.answers_cue, State.cue, hu, if_pos rfl, hcue, if_pos rfl]
  · intro k hk
    rw [State.answers_cue, State.cue, hu, if_pos rfl, hcue, if_neg hk]; rfl
  all_goals rw [State.answers_reel, hu, if_pos rfl]
  · exact insertSlot_length slot _ (s.reel e).cues
  · exact Reel.create_joined slot _ (s.reel e)
  · exact Reel.recompute_points _
  all_goals rfl

open Sys2Proof.Machine in
/-- Settles O31: the checks pass, and the effect is that of `State.amendCue`. -/
theorem cueAmendTakesEffect : Obligations.CueAmendTakesEffect := by
  intro loop f slot c s hs hlo hhi hnames hmode hreel hin hout hfound hprot hframes hlines
  let g := amendGiven f (f.inPt.map fun l => l.number s.pos.rate) (f.outPt.map fun l => l.number s.pos.rate)
    (f.mode.map fun m => if m = 0 then .once else .cycle)
  let run := g.over (c.pendingFields.over c.vals)
  let amended := s.amendCue slot c (g.limited run) (amendClamped f run)
  have hc : s.cue s.cst.editReel slot = some c := State.cue_of_found hs hfound
  have hrefusal : reelRefusal .edit s.editReel.state = none := by rcases hreel with h | h <;> rw [h] <;> rfl
  refine ⟨State.answers (.cueAmend loop 0 f) amended.2.result amended.2.data s amended.1,
    congrArg Host.Outcome.next (State.owner_eq ?work), ?_⟩
  case work =>
    have hlt : ¬ run.outPt ≤ run.inPt := by
      have hi : run.inPt = f.inPt.elim (c.pendingFields.over c.vals).inPt fun l => l.number s.pos.rate := by
        show (f.inPt.map _).getD _ = _
        cases f.inPt <;> rfl
      have ho : run.outPt = f.outPt.elim (c.pendingFields.over c.vals).outPt fun l => l.number s.pos.rate := by
        show (f.outPt.map _).getD _ = _
        cases f.outPt <;> rfl
      rw [hi, ho]
      exact Nat.not_le.mpr hframes
    rw [optMode_of_le hmode]
    dsimp only
    rw [cueChecks_pass (by simp [(loopOk_iff loop).mpr ⟨hlo, hhi⟩, hnames]) hrefusal]
    simp only [State.amendChecked, optFrame_of_valid hin, optFrame_of_valid hout]
    rw [withCue_some hs hfound]
    unfold State.amendFound
    dsimp only
    rw [if_neg (by simp [hprot]), EditVals.over_merge, if_neg hlt]
    exact if_neg hlines
  intro e frame run' spacing onTime given
  have hgiven : g.limited run = given := by
    show (if spacing * 80 < onTime then _ else _) = given
    simp only [given]
    split <;> rfl
  by_cases hp : c.state.isPassing = true
  · rw [if_pos hp]
    have hamend : amended = (s.modCue e slot fun x =>
        { x with pending := some { fields := given.merge c.pendingFields, disarm := c.disarmed } }, { result := .pending }) := by
      rw [← hgiven]; exact if_pos hp
    rw [hamend]
    refine ⟨by rw [State.answers_lastAnswer]; rfl, ?_, ?_⟩
    · unfold OnlyReels
      rw [State.answers_apart, State.answers_cst]; rfl
    · refine ⟨?_, fun k hk => ?_, ?_, ?_, fun r hr => ?_⟩
      · rw [State.answers_cue, State.cue_modCue, if_pos ⟨rfl, rfl⟩, hc]; rfl
      · rw [State.answers_cue, State.cue_modCue, if_neg fun h => hk h.2]
      · rw [State.answers_reel]; simp [State.modCue]
      · rw [State.answers_reel]; simp [State.modCue, Reel.modCue]
      · rw [State.answers_reel]; simp [State.modCue, hr]
  · rw [if_neg hp]
    intro v
    have hamend : amended = (s.applyVals e slot c v, doneOr (amendClamped f run)) := by
      simp only [v, ← hgiven]; exact if_neg hp
    rw [hamend]
    refine ⟨?_, ?_, ?_⟩
    · rw [State.answers_lastAnswer]
      cases amendClamped f run <;> simp [doneOr, Result.isRefusal]
    · unfold OnlyReels
      rw [State.answers_apart, State.answers_cst]
      exact State.applyVals_onlyReels e slot c v s
    · have hedit := State.applyVals_edited e slot c v s hc
      unfold EditedCue at hedit ⊢
      simp only [State.answers_cue, State.answers_reel]
      exact hedit
end

section
/-! CUE_RETIRE (R8, R26, R39 to R41): the cue removed from its reel, and the pass that a retirement aborts first. -/

namespace Sys2Proof.Machine

/-! ## A cue removed -/

theorem Reel.remove_cues (slot : Nat) (r : Reel) : (r.remove slot).cues = r.cues.filter fun p => p.1 != slot := by
  unfold Reel.remove; dsimp only; split <;> rfl

theorem Reel.remove_order (slot : Nat) (r : Reel) : (r.remove slot).order = r.order.erase slot := by
  unfold Reel.remove; dsimp only; split <;> rfl

theorem Reel.remove_conform (slot : Nat) (r : Reel) : (r.remove slot).conform = r.conform := by
  unfold Reel.remove; dsimp only; split <;> rfl

theorem Reel.remove_points (slot : Nat) (r : Reel) : PointsOf (r.remove slot) := by
  unfold Reel.remove; dsimp only; split <;> exact ⟨rfl, rfl⟩

/-- A live cue removed leaves one cue less. -/
theorem Reel.remove_length {slot : Nat} {c : Cue} {r : Reel} (hn : (r.cues.map Prod.fst).Nodup) (hc : r.cue slot = some c) :
    (r.remove slot).cues.length + 1 = r.cues.length := by
  have hm : slot ∈ r.cues.map Prod.fst := (Reel.cue_isSome_iff r slot).mp (by simp [hc])
  have hkeys : (r.remove slot).cues.map Prod.fst = (r.cues.map Prod.fst).erase slot := by
    rw [Reel.remove_cues, hn.erase_eq_filter, List.filter_map]
    rfl
  have h := congrArg List.length hkeys
  rw [List.length_map, List.length_erase_of_mem hm, List.length_map] at h
  have : 0 < r.cues.length := by simpa using List.length_pos_of_mem hm
  omega

/-- A reel left without cues is EMPTY (R40). -/
theorem Reel.remove_state {slot : Nat} {c : Cue} {r : Reel} (hn : (r.cues.map Prod.fst).Nodup) (hc : r.cue slot = some c) :
    (r.remove slot).state = if r.cues.length = 1 then .empty else r.state := by
  have hlen := Reel.remove_length hn hc
  have hstate : (r.remove slot).state = if (r.remove slot).cues.isEmpty then .empty else r.state := by
    rw [Reel.remove_cues]
    unfold Reel.remove Reel.recompute Reel.leaveOrder
    dsimp only
    split <;> rfl
  rw [hstate]
  by_cases h : r.cues.length = 1
  · rw [if_pos h, if_pos (by rw [List.isEmpty_iff_length_eq_zero]; omega)]
  · rw [if_neg h, if_neg (by rw [List.isEmpty_iff_length_eq_zero]; omega)]

/-! ## The context that serves a cue, and a pending play reel -/

/-- Every PASSING cue is served by a context (R83). -/
theorem State.serving_of_passing {s : State} (hs : s.PassesLawful) {r : Fin 8} {slot : Nat} {cue : Cue}
    (hc : s.cue r slot = some cue) (hp : cue.state.isPassing = true) :
    ∃ k c, s.serving r slot = some k ∧ s.ctx k = some c ∧ c.reel = r ∧ c.slot = slot := by
  obtain ⟨k, c, hk, hr, hslot⟩ := hs.2.2 r slot cue hc hp
  have hfind : (s.serving r slot).isSome = true := by
    rw [State.serving, List.find?_isSome]
    exact ⟨k, by fin_cases k <;> simp, by simp [hk, Ctx.serves, hr, hslot]⟩
  obtain ⟨j, hj⟩ := Option.isSome_iff_exists.mp hfind
  have hany := List.find?_some hj
  rw [Option.any_eq_true] at hany
  obtain ⟨d, hd, hserves⟩ := hany
  simp only [Ctx.serves, Bool.and_eq_true, beq_iff_eq] at hserves
  exact ⟨j, d, hj, hd, hserves.1, hserves.2⟩

/-- The play reel that the event takes where it leaves no context ACTIVE (R8). -/
def State.switchTo (s : State) : Option (Fin 8) := if s.allFree then s.cst.pendingPlay else none

theorem State.applyPendingPlay_eq (s : State) : s.applyPendingPlay = s.switchTo.elim s fun r => s.switchPlay r := by
  unfold State.applyPendingPlay State.switchTo
  cases s.allFree <;> cases s.cst.pendingPlay <;> simp

theorem State.applyPendingPlay_noticed (s : State) (h : s.lnk.roomFor 1) :
    Noticed (s.switchTo.toList.map .reelSwitched) s s.applyPendingPlay := by
  rw [State.applyPendingPlay_eq]
  cases s.switchTo with
  | none => exact Noticed.refl s
  | some r => exact s.switchPlay_noticed r h

/-- What the application of a pending play reel sets, and what it leaves. -/
theorem State.applyPendingPlay_apart (s : State) : s.applyPendingPlay.apart =
    { s with
      cst := { s.cst with
        playReel := s.switchTo.getD s.cst.playReel
        pendingPlay := if s.switchTo.isSome then none else s.cst.pendingPlay }
      psc := { s.psc with refind := s.psc.refind || s.switchTo.isSome } }.apart := by
  rw [State.applyPendingPlay_eq]
  cases s.switchTo with
  | none => simp
  | some r => simpa using s.switchPlay_apart r

theorem State.applyPendingPlay_cst (s : State) : s.applyPendingPlay.cst = { s.cst with
    playReel := s.switchTo.getD s.cst.playReel
    pendingPlay := if s.switchTo.isSome then none else s.cst.pendingPlay } :=
  (State.fields_of_apart s.applyPendingPlay_apart).2.2.1

theorem State.applyPendingPlay_psc (s : State) :
    s.applyPendingPlay.psc = { s.psc with refind := s.psc.refind || s.switchTo.isSome } :=
  (State.fields_of_apart s.applyPendingPlay_apart).2.2.2.2.1

theorem State.switchTo_congr {s t : State} (hctx : ∀ k, t.ctx k = s.ctx k) (hp : t.cst.pendingPlay = s.cst.pendingPlay) :
    t.switchTo = s.switchTo := by
  unfold State.switchTo State.allFree
  simp only [hctx, hp]

/-- A context freed leaves none ACTIVE exactly when the others are FREE. -/
theorem State.allFree_setCtx_none (s : State) (k : Fin 4) :
    (s.setCtx k none).allFree = true ↔ ∀ j : Fin 4, j ≠ k → s.ctx j = none := by
  rw [State.allFree_iff]
  refine forall_congr' fun j => ?_
  rw [State.ctx_setCtx]
  by_cases h : j = k <;> simp [h]

/-- The pass that a retirement aborts (R41): its context is FREE, its release and free hand-over are made, and where no
context is left ACTIVE a pending play reel is applied. -/
theorem State.retireCtx_apart {s : State} {k : Fin 4} {c : Ctx} (h : s.ctx k = some c) : (s.retireCtx k).apart =
    { s with
      cst := { s.cst with
        playReel := (s.setCtx k none).switchTo.getD s.cst.playReel
        pendingPlay := if (s.setCtx k none).switchTo.isSome then none else s.cst.pendingPlay }
      psc := { s.psc with
        ctxs := s.psc.ctxs.set k none, refind := s.psc.refind || (s.setCtx k none).switchTo.isSome }
      raised := s.raised ++ [Instr.release k c.loop, Instr.freeHandover k] }.apart := by
  unfold State.retireCtx
  rw [h]
  dsimp only
  generalize hu : State.freeCtx k _ = u
  have hsw : u.switchTo = (s.setCtx k none).switchTo := by
    rw [← hu]
    refine State.switchTo_congr (fun j => ?_) ?_
    · simp [State.freeCtx, State.raiseEnd]
    · simp [State.freeCtx, State.raiseEnd]
  rw [State.applyPendingPlay_apart, hsw, ← hu]
  exact State.apart_ext (by simp [State.freeCtx, State.raiseEnd]) (by simp [State.freeCtx, State.raiseEnd])
    (by simp [State.freeCtx, State.raiseEnd]) (by simp [State.freeCtx, State.raiseEnd])
    (by simp [State.freeCtx, State.raiseEnd, State.setCtx]) (by simp [State.freeCtx, State.raiseEnd])
    (by simp [State.freeCtx, State.raiseEnd]) (by simp [State.freeCtx, State.raiseEnd])
    (by simp [State.freeCtx, State.raiseEnd]) (by simp [State.freeCtx, State.raiseEnd])
    (by simp [State.freeCtx, State.raiseEnd])

/-- It raises PASS_END without a take, then REEL_SWITCHED where the play reel changes. -/
theorem State.retireCtx_noticed {s : State} {k : Fin 4} {c : Ctx} (h : s.ctx k = some c) (room : s.lnk.roomFor 2) :
    Noticed (.passEnd k c.reel c.loop (.aborted .retired) c.phase none
      :: (s.setCtx k none).switchTo.toList.map .reelSwitched) s (s.retireCtx k) := by
  unfold State.retireCtx
  rw [h]
  dsimp only
  have hraise := State.raise_noticed (.passEnd k c.reel c.loop (.aborted .retired) c.phase none)
    (s.post [.release k c.loop]) (Nat.le_of_succ_le room)
  have hroom := State.raise_room (.passEnd k c.reel c.loop (.aborted .retired) c.phase none)
    (s.post [.release k c.loop]) 1 room
  generalize hv : (s.post [.release k c.loop]).raise _ = v at hraise hroom
  have hsw : (v.freeCtx k).switchTo = (s.setCtx k none).switchTo := by
    rw [← hv]
    exact State.switchTo_congr (fun j => by simp [State.freeCtx]) (by simp [State.freeCtx])
  have hfree : Noticed [] v (v.freeCtx k) := Noticed.of_lnk rfl rfl rfl
  have happly := (v.freeCtx k).applyPendingPlay_noticed hroom
  rw [hsw] at happly
  have := ((Noticed.of_lnk (s := s) (t := s.post [.release k c.loop]) rfl rfl rfl).trans hraise).trans (hfree.trans happly)
  simpa [State.raiseEnd, ← hv] using this

theorem State.retireCue_passing {s : State} {slot : Nat} {c : Cue} {k : Fin 4} (hp : c.state.isPassing = true)
    (hk : s.serving s.cst.editReel slot = some k) : s.retireCue slot c =
      ((s.retireCtx k).modReel s.cst.editReel (Reel.remove slot)).markIfPlay s.cst.editReel := by
  simp only [State.retireCue, hp, if_true, hk]

theorem State.retireCue_idle {s : State} {slot : Nat} {c : Cue} (hp : ¬ c.state.isPassing = true) : s.retireCue slot c =
      (s.modReel s.cst.editReel (Reel.remove slot)).markIfPlay s.cst.editReel := by
  simp only [State.retireCue, hp, Bool.false_eq_true, if_false]

end Sys2Proof.Machine

open Sys2Proof.Machine in
/-- Settles O32: the checks in order, then the removal; a PASSING cue's context is the one that serves it. -/
theorem cueRetireRemovesTheCue : Obligations.CueRetireRemovesTheCue := by
  intro loop s hs hpasses room
  let work (s : State) : State × Reply :=
    cueChecks .edit (loopOk loop) (withCue loop fun slot c s =>
      if c.protect then refuse .protectedCue s else (s.retireCue slot c, { result := .done })) s
  refine ⟨s.owner (.cueRetire loop) work, rfl, ?_⟩
  intro i e x
  by_cases hloop : 1 ≤ loop.toNat ∧ loop.toNat ≤ 9999
  swap
  · rw [if_pos hloop]
    exact State.owner_refused (cueChecks_badField (by simpa using mt (loopOk_iff loop).mp hloop) _ s)
  rw [if_neg (not_not.mpr hloop)]
  have hok := (loopOk_iff loop).mpr hloop
  by_cases hbusy : x.state = .conforming ∨ x.state = .locked
  · rw [if_pos hbusy]
    refine State.owner_refused (cueChecks_reel hok ?_ _)
    rcases hbusy with h | h <;> rw [show s.editReel.state = _ from h] <;> rfl
  rw [if_neg hbusy]
  by_cases hpart : x.state = .partly
  · rw [if_pos hpart]
    refine State.owner_refused (cueChecks_reel hok ?_ _)
    rw [show s.editReel.state = _ from hpart]; rfl
  rw [if_neg hpart]
  have hrefusal : reelRefusal .edit s.editReel.state = none := by
    show reelRefusal .edit x.state = none
    cases hx : x.state <;> simp_all [reelRefusal]
  have hwork : work s = withCue loop (fun slot c s =>
      if c.protect then refuse .protectedCue s else (s.retireCue slot c, { result := .done })) s :=
    cueChecks_pass hok hrefusal _
  refine ⟨fun h => State.owner_refused (hwork.trans (withCue_none h _)), fun p hp => ?_⟩
  rw [withCue_some hs hp] at hwork
  by_cases hprot : p.2.protect = true
  · rw [if_pos hprot] at hwork ⊢
    exact State.owner_refused hwork
  rw [if_neg hprot] at hwork ⊢
  have hc : (s.reel e).cue p.1 = some p.2 := State.cue_of_found hs hp
  have hn := Reel.keys_nodup (State.reel_lawful hs e)
  rw [State.owner_eq hwork]
  generalize hans : State.answers (.cueRetire loop) .done .nothing s (s.retireCue p.1 p.2) = t
  have hreel (r : Fin 8) : t.reel r = if r = e then x.remove p.1 else s.reel r := by
    rw [← hans, State.answers_reel, State.retireCue_reel]
    by_cases h : r = e
    · rw [if_pos h, if_pos h, h]
    · rw [if_neg h, if_neg h]
  have hcue (k : Nat) : t.cue e k = if k = p.1 then none else s.cue e k := by
    rw [State.cue, hreel, if_pos rfl, Reel.cue_remove]; rfl
  have hrest : (t.reel e).cues.length + 1 = x.cues.length ∧ (t.reel e).order = x.order.erase p.1 ∧ PointsOf (t.reel e)
      ∧ (t.reel e).tag = x.tag ∧ (t.reel e).conform = x.conform
      ∧ (t.reel e).state = if x.cues.length = 1 then .empty else x.state := by
    rw [hreel, if_pos rfl]
    exact ⟨Reel.remove_length hn hc, Reel.remove_order _ _, Reel.remove_points _ _, Reel.remove_tag _ _,
      Reel.remove_conform _ _, Reel.remove_state hn hc⟩
  obtain ⟨hlen, horder, hpoints, htag, hconf, hstate⟩ := hrest
  by_cases hpassing : p.2.state.isPassing = true
  · obtain ⟨k, c, hserving, hk, hcr, hcs⟩ := State.serving_of_passing hpasses hc hpassing
    have hplay : e = s.cst.playReel := hcr.symm.trans (hpasses.1 k c hk).1
    obtain ⟨hpending, hpos, hcst, hcfu, hpsc, hciu, hovl, hpch, hvgt, hboard, hraised⟩ :=
      State.fields_of_apart (State.retireCtx_apart hk)
    rw [State.retireCue_passing hpassing hserving] at hans
    have htcst : t.cst = { (s.retireCtx k).cst with reels := t.cst.reels } := by
      rw [← hans]; simp [State.modReel]
    have hedit : t.cst.editReel = e := by rw [htcst, hcst]
    refine ⟨hedit, fun r hr => by rw [hreel, if_neg hr], by rw [hcue, if_pos rfl], fun k hk => by rw [hcue, if_neg hk],
      hlen, horder, hpoints, htag, hconf, hstate, ?_⟩
    rw [if_pos hpassing]
    refine ⟨k, by simp [hk], fun c' hc' => ?_⟩
    obtain rfl : c = c' := Option.some.inj (hk.symm.trans hc')
    have hanswered := State.answers_answered (i := i) (r := .done) (d := .nothing)
      ((State.retireCtx_noticed hk room).trans ((State.modReel_noticed s.cst.editReel (Reel.remove p.1) _).trans
        (State.markIfPlay_noticed s.cst.editReel _)))
    rw [show State.answers i .done .nothing s _ = t from hans, List.append_nil, List.append_nil] at hanswered
    refine ⟨hcr, hcs, ?_, fun hlast => ?_, fun hlast => ?_⟩
    · rw [← hans, State.answers_apart, State.answers_cst]
      refine State.apart_ext ?_ ?_ rfl ?_ ?_ ?_ ?_ ?_ ?_ ?_ ?_
      case refine_4 =>
        rw [State.markIfPlay_psc, State.modReel_psc, State.modReel_playReel, hpsc, hcst]
        have : (s.setCtx k none).switchTo.isSome || decide (e = (s.setCtx k none).switchTo.getD s.cst.playReel) := by
          cases (s.setCtx k none).switchTo <;> simp [hplay]
        rw [Bool.or_assoc, this, show decide (e = s.cst.playReel) = true from decide_eq_true hplay]
      all_goals simp [*]
    · have hfree := (s.allFree_setCtx_none k).mpr hlast
      have hsw : (s.setCtx k none).switchTo = s.cst.pendingPlay := by rw [State.switchTo, if_pos hfree]; rfl
      rw [hsw] at hanswered hcst
      refine ⟨by rw [htcst, hcst], ?_, by rw [← hcr]; exact hanswered⟩
      rw [htcst, hcst]
      cases s.cst.pendingPlay <;> rfl
    · have hfree : ¬ (s.setCtx k none).allFree = true := mt (s.allFree_setCtx_none k).mp hlast
      have hsw : (s.setCtx k none).switchTo = none := by rw [State.switchTo, if_neg hfree]
      rw [hsw] at hanswered hcst
      exact ⟨by rw [htcst, hcst]; rfl, by rw [htcst, hcst]; rfl, by rw [← hcr]; exact hanswered⟩
  · rw [State.retireCue_idle hpassing] at hans
    have hedit : t.cst.editReel = e := by rw [← hans]; simp; rfl
    refine ⟨hedit, fun r hr => by rw [hreel, if_neg hr], by rw [hcue, if_pos rfl], fun k hk => by rw [hcue, if_neg hk],
      hlen, horder, hpoints, htag, hconf, hstate, ?_⟩
    rw [if_neg hpassing, ← hans]
    refine ⟨?_, State.answers_answered ((State.modReel_noticed _ _ _).trans (State.markIfPlay_noticed _ _))⟩
    unfold OnlyReels
    rw [State.answers_apart, State.answers_cst]
    exact State.markIfPlay_modReel_onlyReels e (Reel.remove p.1) s
end

section
/-! The steps of a shift and of a copy (R10, R11, R47, R50, R51, R54, R55). -/

namespace Sys2Proof.Machine

/-! ## The cursor and the end of an operation -/

@[simp] theorem State.advanceCursor_reel (op : Operation) (s : State) (r : Fin 8) : (s.advanceCursor op).reel r =
    if r = op.target then
      { s.reel r with conform := (s.reel r).conform.map fun c => { c with cursor := op.cursor + 1 } }
    else s.reel r := by
  rw [show (s.advanceCursor op).reel r = (s.modReel op.target fun x =>
      { x with conform := x.conform.map fun c => { c with cursor := op.cursor + 1 } }).reel r from rfl, State.reel_modReel]
  by_cases h : r = op.target
  · rw [if_pos h, if_pos h, h]
  · rw [if_neg h, if_neg h]

@[simp] theorem State.endConform_reel (op : Operation) (s : State) (r : Fin 8) : (s.endConform op).reel r =
    if r = op.target then Reel.recompute { s.reel r with state := .opened, conform := none } else s.reel r := by
  unfold State.endConform
  dsimp only
  rw [State.raise_reel, State.markIfPlay_reel]
  refine (State.reel_modReel op.target r (fun x => Reel.recompute { x with state := .opened, conform := none }) s).trans ?_
  by_cases h : r = op.target
  · rw [if_pos h, if_pos h, h]
  · rw [if_neg h, if_neg h]

/-- The end of an operation changes nothing but reels, the operation in hand and the re-find mark. -/
theorem State.endConform_apart (op : Operation) (s : State) : (s.endConform op).apart =
    { s with cst := { s.cst with reels := (s.endConform op).cst.reels }
             cfu := none
             psc := { s.psc with refind := s.psc.refind || decide (op.target = s.cst.playReel) } }.apart := by
  unfold State.endConform
  dsimp only
  rw [State.raise_apart]
  exact State.apart_ext (by simp) (by simp) (by simp [State.modReel]) (by simp) (by rw [State.markIfPlay_psc]; rfl)
    (by simp) (by simp) (by simp) (by simp) (by simp) (by simp)

/-- It raises CONFORM_DONE. -/
theorem State.endConform_noticed (op : Operation) (s : State) (h : s.lnk.roomFor 1) :
    Noticed [.conformDone op.target op.op] s (s.endConform op) := by
  unfold State.endConform
  dsimp only
  refine Noticed.trans (ms := []) (Noticed.of_lnk (by simp) (by simp) (by simp)) (State.raise_noticed _ _ ?_)
  simpa using h

/-! ## A step of a shift -/

theorem moveFrame_cast {n : Nat} {delta : Int} (h : 0 ≤ (n : Int) + delta) : (moveFrame n delta : Int) = n + delta :=
  Int.toNat_of_nonneg h

/-- The cue at the cursor of a shift keeps its ordering key: its flag stood for the delta that its frames now hold (R10). -/
theorem Reel.keyOf_shifted {x y : Reel} {c : Cue} {delta : Int} (hp : c.conformPending = true) (hd : x.delta = delta)
    (hday : 0 ≤ (c.vals.inPt : Int) + delta) : y.keyOf (c.shifted delta) = x.keyOf c := by
  simp [Reel.keyOf, Cue.shifted, CueVals.moved, hp, hd, moveFrame_cast hday]

/-- The reel of a shift after a step, before its end is looked at. -/
theorem State.shift_reel (op : Operation) (slot : Nat) (s : State) (r : Fin 8) :
    ((s.modCue op.target slot (Cue.shifted op.delta)).advanceCursor op).reel r =
      if r = op.target then
        { (s.reel r).modCue slot (Cue.shifted op.delta) with
          conform := (s.reel r).conform.map fun c => { c with cursor := op.cursor + 1 } }
      else s.reel r := by
  rw [State.advanceCursor_reel, State.modCue, State.reel_modReel]
  by_cases h : r = op.target
  · rw [if_pos h, if_pos h, if_pos h, ← h]; rfl
  · rw [if_neg h, if_neg h, if_neg h]

theorem execShiftStep_eq {s : State} {op : Operation} {slot : Nat} (hop : s.cfu = some op) (hshift : op.op = .shift)
    (hslot : (s.reel op.target).order[op.cursor]? = some slot) : exec .shiftStep s = .next (s.shiftAt op slot) := by
  show execShiftStep s = _
  simp only [execShiftStep, hop, hshift, hslot]

/-! ## A step of a copy -/

/-- The reels of a copy after a step, before its end is looked at. -/
theorem State.copy_reel (op : Operation) (slot : Nat) (c : Cue) (s : State) (r : Fin 8) :
    (((s.modReel op.target (Reel.create slot c)).markIfPlay op.target).advanceCursor op).reel r =
      if r = op.target then
        { (s.reel r).create slot c with conform := (s.reel r).conform.map fun c => { c with cursor := op.cursor + 1 } }
      else s.reel r := by
  rw [State.advanceCursor_reel, State.markIfPlay_reel, State.reel_modReel]
  by_cases h : r = op.target
  · rw [if_pos h, if_pos h, if_pos h, ← h]; rfl
  · rw [if_neg h, if_neg h, if_neg h]

theorem execCopyStep_eq {s : State} {op : Operation} {src : Fin 8} {c : Cue} {from' slot : Nat} (hop : s.cfu = some op)
    (hcopy : op.op = .copy src) (hfrom : (s.reel src).order[op.cursor]? = some from') (hc : s.cue src from' = some c)
    (hslot : (s.reel op.target).freeSlot = some slot) : exec .copyStep s = .next (s.copyAt op src c slot) := by
  show execCopyStep s = _
  have hc' : (s.reel src).cue from' = some c := hc
  simp only [execCopyStep, hop, hcopy, hfrom, hslot, Option.bind_some, hc']

end Sys2Proof.Machine

open Sys2Proof.Machine in
/-- Settles O37: a step before the last, and the last. -/
theorem shiftStepsMoveTheCues : Obligations.ShiftStepsMoveTheCues := by
  intro op slot c s hop hshift hslot hc room hin hout
  refine ⟨_, execShiftStep_eq hop hshift hslot, ?_⟩
  intro x y last v
  let u := (s.modCue op.target slot (Cue.shifted op.delta)).advanceCursor op
  have hu (r : Fin 8) : u.reel r = _ := State.shift_reel op slot s r
  have hcue (k : Nat) : (x.modCue slot (Cue.shifted op.delta)).cue k
      = if k = slot then some { c with vals := v, conformPending := false, waited := false } else s.cue op.target k := by
    rw [Reel.cue_modCue]
    split
    · next h => subst h; rw [show x.cue k = some c from hc]; rfl
    · rfl
  have hkey {z : Reel} (hz : z.cue slot = some (c.shifted op.delta)) (hp : c.conformPending = true) (hd : x.delta = op.delta) :
      z.key slot = x.key slot := by
    rw [Reel.key, Reel.key, hz, show x.cue slot = some c from hc]
    exact Reel.keyOf_shifted hp hd hin
  by_cases hlast : op.cursor + 1 = x.order.length
  · have ht : s.shiftAt op slot = u.endConform op := if_pos hlast
    have hy : y = Reel.recompute { x.modCue slot (Cue.shifted op.delta) with state := .opened, conform := none } := by
      show (s.shiftAt op slot).reel op.target = _
      rw [ht, State.endConform_reel, if_pos rfl, hu, if_pos rfl]
    have hl : last = true := decide_eq_true hlast
    rw [hl, if_pos rfl, if_pos rfl, if_pos rfl]
    refine ⟨?_, ?_, fun r hr => ?_, ?_, fun k hk => ?_, ?_, ?_, fun hp hd => ?_, ?_, ?_, ?_⟩
    · rw [ht, State.endConform_apart]; rfl
    · rw [ht, ← hshift]
      exact (Noticed.of_lnk (s := s) (t := u) rfl rfl rfl).trans (u.endConform_noticed op room)
    · rw [ht, State.endConform_reel, if_neg hr, hu, if_neg hr]
    · show y.cue slot = _
      rw [hy, Reel.recompute_cue]; exact (hcue slot).trans (if_pos rfl)
    · show y.cue k = _
      rw [hy, Reel.recompute_cue]; exact (hcue k).trans (if_neg hk)
    · rw [hy]; rfl
    · rw [hy]; rfl
    · refine hkey ?_ hp hd
      rw [hy, Reel.recompute_cue]; exact (hcue slot).trans (if_pos rfl)
    · rw [hy]; rfl
    · rw [hy]; rfl
    · rw [hy]; exact Reel.recompute_points _
  · have ht : s.shiftAt op slot = u := if_neg hlast
    have hy : y = { x.modCue slot (Cue.shifted op.delta) with
        conform := x.conform.map fun c => { c with cursor := op.cursor + 1 } } := by
      show (s.shiftAt op slot).reel op.target = _
      rw [ht, hu, if_pos rfl]
    have hl : last = false := decide_eq_false hlast
    rw [hl]
    simp only [Bool.false_eq_true, if_false, Bool.false_and, Bool.or_false]
    refine ⟨?_, ?_, fun r hr => ?_, ?_, fun k hk => ?_, ?_, ?_, fun hp hd => ?_, ?_, ?_, ?_, ?_⟩
    · rw [ht]; rfl
    · rw [ht]; exact Noticed.of_lnk rfl rfl rfl
    · rw [ht, hu, if_neg hr]
    · show y.cue slot = _
      rw [hy]; exact (hcue slot).trans (if_pos rfl)
    · show y.cue k = _
      rw [hy]; exact (hcue k).trans (if_neg hk)
    · rw [hy]; rfl
    · rw [hy]; rfl
    · refine hkey ?_ hp hd
      rw [hy]; exact (hcue slot).trans (if_pos rfl)
    · rw [hy]; rfl
    · rw [hy]; rfl
    · rw [hy]; rfl
    · rw [hy]

open Sys2Proof.Machine in
/-- Settles O39: a step before the last, and the last, which releases the source. -/
theorem copyStepsCreateTheCues : Obligations.CopyStepsCreateTheCues := by
  intro op src from' slot c s hop hcopy hne hfrom hc _ hfree hlow hslot room hin hout
  refine ⟨_, execCopyStep_eq hop hcopy hfrom hc (Reel.freeSlot_eq hfree hlow hslot), ?_⟩
  intro x y last v
  let new := newCue c.loop (c.vals.moved op.delta)
  let u := ((s.modReel op.target (Reel.create slot new)).markIfPlay op.target).advanceCursor op
  have hu (r : Fin 8) : u.reel r = _ := State.copy_reel op slot new s r
  have hcue (k : Nat) : (x.create slot new).cue k = if k = slot then some new else s.cue op.target k :=
    Reel.cue_create slot k new x hfree
  have hnoticed : Noticed [] s u := Noticed.of_lnk (by simp [u, State.advanceCursor]) (by simp [u, State.advanceCursor])
    (by simp [u, State.advanceCursor])
  have hroom : u.lnk.roomFor 1 := by simpa [u, State.advanceCursor] using room
  have hua : u.apart = { s with
      cst := { s.cst with reels := u.cst.reels }
      cfu := some { op with cursor := op.cursor + 1 }
      psc := { s.psc with refind := s.psc.refind || decide (op.target = s.cst.playReel) } }.apart := by
    have h := State.markIfPlay_modReel_onlyReels op.target (Reel.create slot new) s
    obtain ⟨hpending, hpos, -, -, hpsc, hciu, hovl, hpch, hvgt, hboard, hraised⟩ := State.fields_of_apart h
    exact State.apart_ext hpending hpos (by simp [u, State.advanceCursor, State.modReel]) rfl hpsc hciu hovl hpch hvgt hboard
      hraised
  by_cases hlast : op.cursor + 1 = (s.reel src).order.length
  · let w := u.modReel src fun r => { r with state := .opened }
    have ht : s.copyAt op src c slot = w.endConform op := if_pos hlast
    have hw (r : Fin 8) : w.reel r = if r = src then { u.reel src with state := .opened } else u.reel r :=
      State.reel_modReel src r _ u
    have hy : y = Reel.recompute { x.create slot new with state := .opened, conform := none } := by
      show (s.copyAt op src c slot).reel op.target = _
      rw [ht, State.endConform_reel, if_pos rfl, hw, if_neg (Ne.symm hne), hu, if_pos rfl]
    have hl : last = true := decide_eq_true hlast
    rw [hl]
    simp only [if_true]
    refine ⟨?_, ?_, fun r hr hr' => ?_, ?_, ?_, fun k hk => ?_, ?_, ?_, ?_, ?_, ?_, ?_⟩
    · have hplay : w.cst.playReel = s.cst.playReel := by simp [w, u, State.advanceCursor]
      have hedit : w.cst.editReel = s.cst.editReel := by simp [w, u, State.advanceCursor]
      have hpending' : w.cst.pendingPlay = s.cst.pendingPlay := by simp [w, u, State.advanceCursor]
      rw [ht, State.endConform_apart]
      obtain ⟨hpending, hpos, -, -, hpsc, hciu, hovl, hpch, hvgt, hboard, hraised⟩ := State.fields_of_apart hua
      refine State.apart_ext hpending hpos ?_ rfl ?_ hciu hovl hpch hvgt hboard hraised
      · simp [hplay, hedit, hpending']
      · show { u.psc with refind := u.psc.refind || decide (op.target = w.cst.playReel) } = _
        rw [hpsc, hplay]
        simp
    · rw [ht, ← hcopy]
      exact (hnoticed.trans (u.modReel_noticed src _)).trans (w.endConform_noticed op hroom)
    · rw [ht, State.endConform_reel, if_neg hr, hw, if_neg hr', hu, if_neg hr]
    · rw [ht, State.endConform_reel, if_neg hne, hw, if_pos rfl, hu, if_neg hne]
    · show y.cue slot = _
      rw [hy]; exact (hcue slot).trans (if_pos rfl)
    · show y.cue k = _
      rw [hy]; exact (hcue k).trans (if_neg hk)
    · rw [hy]; exact insertSlot_length slot new x.cues
    · rw [hy]; exact Reel.create_joined slot new x
    · rw [hy]; rfl
    · rw [hy]; rfl
    · rw [hy]; rfl
    · rw [hy]; exact Reel.recompute_points _
  · have ht : s.copyAt op src c slot = u := if_neg hlast
    have hy : y = { x.create slot new with conform := x.conform.map fun c => { c with cursor := op.cursor + 1 } } := by
      show (s.copyAt op src c slot).reel op.target = _
      rw [ht, hu, if_pos rfl]
    have hl : last = false := decide_eq_false hlast
    rw [hl]
    simp only [Bool.false_eq_true, if_false]
    refine ⟨?_, ?_, fun r hr _ => ?_, ?_, ?_, fun k hk => ?_, ?_, ?_, ?_, ?_⟩
    · rw [ht, hua]
    · rw [ht]; exact hnoticed
    · rw [ht, hu, if_neg hr]
    · rw [ht, hu, if_neg hne]
    · show y.cue slot = _
      rw [hy]; exact (hcue slot).trans (if_pos rfl)
    · show y.cue k = _
      rw [hy]; exact (hcue k).trans (if_neg hk)
    · rw [hy]; exact insertSlot_length slot new x.cues
    · rw [hy]; exact Reel.create_joined slot new x
    · rw [hy]; rfl
    · rw [hy]; exact ⟨rfl, rfl, rfl, rfl⟩
end

section
/-! One pass tended in one event: what the scheduler does with the context and the cue of a pass, on an abort and at a running
edge (R96 to R105), in the terms of `PassWork`. -/

namespace Sys2Proof.Machine

/-! ## Notices raised, with room or without -/

/-- An event that raised the notices `ns` in order: all of them join where there is room or none was discarded, and what was
held stays in front in any case (R173, R174). -/
structure Told (ns : List Notice) (s t : State) : Prop where
  noticed : s.lnk.roomFor ns.length ∨ t.lnk.overrun = false → Noticed ns s t
  overrun : t.lnk.overrun = false → s.lnk.overrun = false
  length : t.lnk.notices.length ≤ s.lnk.notices.length + ns.length
  held : s.lnk.noticesHeld <+: t.lnk.noticesHeld

theorem Told.of_lnk {s t : State} (h : t.lnk = s.lnk) (h' : t.lastAnswer = s.lastAnswer) (h'' : t.ties = s.ties) :
    Told [] s t :=
  { noticed := fun _ => Noticed.of_lnk h h' h'', overrun := fun ho => by rwa [h] at ho, length := by simp [h],
    held := by rw [h] }

theorem Told.refl (s : State) : Told [] s s := Told.of_lnk rfl rfl rfl

theorem Told.trans {ms ns : List Notice} {s t u : State} (h : Told ms s t) (h' : Told ns t u) : Told (ms ++ ns) s u where
  noticed hc := by
    refine (h.noticed ?_).trans (h'.noticed ?_)
    · refine hc.imp (fun hr => ?_) h'.overrun
      simp only [Link.roomFor, List.length_append] at hr ⊢
      omega
    · refine hc.imp (fun hr => ?_) id
      have := h.length
      simp only [Link.roomFor, List.length_append] at hr ⊢
      omega
  overrun ho := h.overrun (h'.overrun ho)
  length := by
    have := h.length
    have := h'.length
    simp only [List.length_append]
    omega
  held := h.held.trans h'.held

theorem State.raise_told (n : Notice) (s : State) : Told [n] s (s.raise n) := by
  have hover : (s.raise n).lnk.overrun = (s.lnk.join n).overrun := by simp [State.raise]
  by_cases hr : s.lnk.roomFor 1
  · have hn := State.raise_noticed n s hr
    refine { noticed := fun _ => hn, overrun := fun ho => ?_, length := ?_, held := ?_ }
    · rwa [hover, Link.join_overrun n _ hr] at ho
    · have h1 := State.transmit_notices_le { s with lnk := s.lnk.join n }
      have h2 := Link.join_notices_le n s.lnk
      exact Nat.le_trans h1 h2
    · rw [hn.1]; exact List.prefix_append _ _
  · have hj := Link.join_full n s.lnk hr
    have ho : (s.raise n).lnk.overrun = true := by rw [hover, hj]
    refine { noticed := fun hc => ?_, overrun := fun h => ?_, length := ?_, held := ?_ }
    · rcases hc with hc | hc
      · exact absurd hc hr
      · simp [ho] at hc
    · simp [ho] at h
    · have h1 := State.transmit_notices_le { s with lnk := s.lnk.join n }
      have h2 : (s.lnk.join n).notices = s.lnk.notices := by rw [hj]
      exact Nat.le_trans h1 (by rw [h2]; exact Nat.le_add_right _ _)
    · have : (s.raise n).lnk.noticesHeld = s.lnk.noticesHeld := by
        simp only [State.raise, State.transmit_noticesHeld, hj]; rfl
      rw [this]

theorem Told.held_append {ns : List Notice} {s t : State} (h : Told ns s t) (room : s.lnk.roomFor ns.length) :
    t.lnk.noticesHeld = s.lnk.noticesHeld ++ ns :=
  (h.noticed (.inl room)).1

/-! ## What the scheduler's work leaves alone -/

/-- The state apart from the link, the Cue Store, the Pass Scheduler and the events raised: what no work of the scheduler
touches. -/
def State.outer (s : State) : State := { s.apart with cst := CueStore.reset, psc := Psc.reset, raised := [] }

/-- The selectors of the Cue Store, without its reels. -/
def CueStore.bare (c : CueStore) : CueStore := { c with reels := CueStore.reset.reels }

theorem State.apart_of_outer {s t : State} (h : t.outer = s.outer) :
    t.apart = { s with cst := t.cst, psc := t.psc, raised := t.raised }.apart := by
  obtain ⟨hpending, hpos, -, hcfu, -, hciu, hovl, hpch, hvgt, hboard, -⟩ :=
    State.fields_of_apart (s := { s with cst := CueStore.reset, psc := Psc.reset, raised := [] })
      (t := { t with cst := CueStore.reset, psc := Psc.reset, raised := [] }) h
  exact State.apart_ext hpending hpos rfl hcfu rfl hciu hovl hpch hvgt hboard rfl

theorem State.outer_of_apart {s t : State} (h : t.apart = s.apart) : t.outer = s.outer := by
  unfold State.outer
  rw [h]

theorem State.rate_of_outer {s t : State} (h : t.outer = s.outer) : t.pos = s.pos :=
  (State.fields_of_apart (State.apart_of_outer h)).2.1

theorem CueStore.eq_of_bare {c d : CueStore} (h : d.bare = c.bare) : d = { c with reels := d.reels } := by
  simp only [CueStore.bare, CueStore.mk.injEq, true_and] at h
  obtain ⟨h1, h2, h3⟩ := h
  rw [← h1, ← h2, ← h3]

theorem CueStore.playReel_of_bare {c d : CueStore} (h : d.bare = c.bare) : d.playReel = c.playReel := by
  rw [CueStore.eq_of_bare h]

theorem CueStore.pendingPlay_of_bare {c d : CueStore} (h : d.bare = c.bare) : d.pendingPlay = c.pendingPlay := by
  rw [CueStore.eq_of_bare h]

@[simp] theorem State.transmit_outer (s : State) : s.transmit.outer = s.outer := State.outer_of_apart (by simp)
@[simp] theorem State.raise_outer (n : Notice) (s : State) : (s.raise n).outer = s.outer := State.outer_of_apart (by simp)
@[simp] theorem State.post_outer (es : List Instr) (s : State) : (s.post es).outer = s.outer := rfl
@[simp] theorem State.modReel_outer (r : Fin 8) (f : Reel → Reel) (s : State) : (s.modReel r f).outer = s.outer := rfl
@[simp] theorem State.modCue_outer (r : Fin 8) (slot : Nat) (f : Cue → Cue) (s : State) :
    (s.modCue r slot f).outer = s.outer := rfl
@[simp] theorem State.freeCtx_outer (k : Fin 4) (s : State) : (s.freeCtx k).outer = s.outer := rfl
@[simp] theorem State.markIfPlay_outer (r : Fin 8) (s : State) : (s.markIfPlay r).outer = s.outer := by
  unfold State.markIfPlay; split <;> rfl
@[simp] theorem State.applyVals_outer (r : Fin 8) (slot : Nat) (c : Cue) (v : CueVals) (s : State) :
    (s.applyVals r slot c v).outer = s.outer := by
  unfold State.applyVals; dsimp only; split <;> simp
@[simp] theorem State.settleCue_outer (b : Bool) (r : Fin 8) (slot : Nat) (s : State) :
    (s.settleCue b r slot).outer = s.outer := by
  unfold State.settleCue; split <;> simp
@[simp] theorem State.raiseEnd_outer (k : Fin 4) (c : Ctx) (o : PassOutcome) (x : Option Take) (s : State) :
    (s.raiseEnd k c o x).outer = s.outer := State.raise_outer _ s
@[simp] theorem State.applyPendingPlay_outer (s : State) : s.applyPendingPlay.outer = s.outer := by
  unfold State.applyPendingPlay
  split
  · exact State.raise_outer _ _
  · rfl

@[simp] theorem State.modReel_bare (r : Fin 8) (f : Reel → Reel) (s : State) : (s.modReel r f).cst.bare = s.cst.bare := rfl
@[simp] theorem State.modCue_bare (r : Fin 8) (slot : Nat) (f : Cue → Cue) (s : State) :
    (s.modCue r slot f).cst.bare = s.cst.bare := rfl
@[simp] theorem State.applyVals_bare (r : Fin 8) (slot : Nat) (c : Cue) (v : CueVals) (s : State) :
    (s.applyVals r slot c v).cst.bare = s.cst.bare := by
  unfold State.applyVals; dsimp only; split <;> simp
@[simp] theorem State.settleCue_bare (b : Bool) (r : Fin 8) (slot : Nat) (s : State) :
    (s.settleCue b r slot).cst.bare = s.cst.bare := by
  unfold State.settleCue; split <;> simp

theorem State.setCtx_psc (k : Fin 4) (c : Option Ctx) (s : State) :
    (s.setCtx k c).psc = { s.psc with ctxs := s.psc.ctxs.set k c } := rfl

@[simp] theorem State.raiseEnd_reel (k : Fin 4) (c : Ctx) (o : PassOutcome) (x : Option Take) (s : State) (r : Fin 8) :
    (s.raiseEnd k c o x).reel r = s.reel r := State.raise_reel _ _ r
@[simp] theorem State.raiseEnd_psc (k : Fin 4) (c : Ctx) (o : PassOutcome) (x : Option Take) (s : State) :
    (s.raiseEnd k c o x).psc = s.psc := State.raise_psc _ _
@[simp] theorem State.raiseEnd_cst (k : Fin 4) (c : Ctx) (o : PassOutcome) (x : Option Take) (s : State) :
    (s.raiseEnd k c o x).cst = s.cst := State.raise_cst _ _
@[simp] theorem State.raiseEnd_raised (k : Fin 4) (c : Ctx) (o : PassOutcome) (x : Option Take) (s : State) :
    (s.raiseEnd k c o x).raised = s.raised := State.raise_raised _ _

/-! ## A cue settled -/

theorem Reel.Edited.mono {done done' : List Nat} {x y : Reel} (h : Reel.Edited done x y) (hs : ∀ k ∈ done, k ∈ done') :
    Reel.Edited done' x y :=
  { h with others := fun k hk => h.others k fun e => hk (hs k e) }

theorem State.applyVals_reel (r r' : Fin 8) (slot : Nat) (c : Cue) (v : CueVals) (s : State) :
    (s.applyVals r slot c v).reel r' = if r' = r then (s.reel r).applyVals slot c v else s.reel r' := by
  rw [← State.reel_modReel]
  unfold State.applyVals
  dsimp only
  split
  · rw [State.markIfPlay_reel]
  · rfl

/-- A settled cue and the reel it stands in. -/
theorem State.settleCue_reel {b : Bool} {r : Fin 8} {slot : Nat} {s : State} {c : Cue} (hc : s.cue r slot = some c)
    (r' : Fin 8) : (s.settleCue b r slot).reel r' =
      if r' = r then ((s.reel r).applyVals slot c c.settledVals).modCue slot fun x =>
        { x with pending := none, state := settleState b c.disarmed c.settledVals.mode x.state }
      else s.reel r' := by
  simp only [State.settleCue, hc, State.modCue, State.reel_modReel, State.applyVals_reel, if_true]
  split <;> rfl

theorem State.applyVals_psc (r : Fin 8) (slot : Nat) (c : Cue) (v : CueVals) (s : State) : (s.applyVals r slot c v).psc =
    { s.psc with refind := s.psc.refind || (decide (v.inPt ≠ c.vals.inPt) && decide (r = s.cst.playReel)) } :=
  (State.fields_of_apart (State.applyVals_onlyReels r slot c v s)).2.2.2.2.1

/-- A cue of the play reel settled sets the mark where its in-point is another (R38). -/
theorem State.settleCue_psc {b : Bool} {r : Fin 8} {slot : Nat} {s : State} {c : Cue} (hc : s.cue r slot = some c)
    (hr : r = s.cst.playReel) : (s.settleCue b r slot).psc =
      { s.psc with refind := s.psc.refind || decide ((c.afterPass b).vals.inPt ≠ c.vals.inPt) } := by
  simp only [State.settleCue, hc, State.modCue_psc, State.applyVals_psc, decide_eq_true hr, Bool.and_true, Cue.afterPass_eq]

theorem State.settleCue_cue {b : Bool} {r : Fin 8} {slot : Nat} {s : State} {c : Cue} (hc : s.cue r slot = some c) (k : Nat) :
    (s.settleCue b r slot).cue r k = if k = slot then some (c.afterPass b) else s.cue r k := by
  rw [State.cue, State.settleCue_reel hc, if_pos rfl, Reel.cue_modCue, Reel.cue_applyVals]
  split
  · next h =>
    subst h
    rw [show (s.reel r).cue k = some c from hc, Cue.afterPass_eq]
    by_cases hi : c.settledVals.inPt = c.vals.inPt <;> simp [hi]
  · rfl

theorem State.settleCue_told {b : Bool} {r : Fin 8} {slot : Nat} {s : State} {c : Cue} (hc : s.cue r slot = some c) :
    Told [] s (s.settleCue b r slot) := by
  refine Told.of_lnk ?_ ?_ ?_ <;> simp [State.settleCue, hc]

/-! ## One pass tended -/

/-- The scheduler did part of its work on the pass of context `k` with the cue of slot `slot` of the play reel `r`: the context
is now `ctx'` and the cue, which was `cue`, is `cue'`; the notices `ns` were raised and the events `es` handed on. Nothing
else changed but the order list and header of the reel, with the edits applied to the cue, and the mark of R38. -/
structure Tended (k : Fin 4) (r : Fin 8) (slot : Nat) (ctx' : Option Ctx) (cue cue' : Cue) (ns : List Notice)
    (es : List Instr) (s t : State) : Prop where
  outer : t.outer = s.outer
  bare : t.cst.bare = s.cst.bare
  raised : t.raised = s.raised ++ es
  pointer : t.psc.pointer = s.psc.pointer
  refind : t.psc.refind = (s.psc.refind || decide (cue'.vals.inPt ≠ cue.vals.inPt))
  ctx : ∀ j, t.ctx j = if j = k then ctx' else s.ctx j
  reels : ∀ r', r' ≠ r → t.reel r' = s.reel r'
  cueAt : t.cue r slot = some cue'
  cues : ∀ j, j ≠ slot → t.cue r j = s.cue r j
  edited : ∀ (done : List Nat) (x : Reel), x.lawful = true → slot ∉ done → Reel.Edited done x (s.reel r) →
    Reel.Edited (slot :: done) x (t.reel r)
  told : Told ns s t

/-- The scheduler worked on the takes of the cue that context `k` serves and on the context, and on no value of the cue. -/
structure Worked (k : Fin 4) (r : Fin 8) (slot : Nat) (ctx' : Option Ctx) (cue cue' : Cue) (ns : List Notice)
    (es : List Instr) (s t : State) : Prop where
  outer : t.outer = s.outer
  bare : t.cst.bare = s.cst.bare
  raised : t.raised = s.raised ++ es
  pointer : t.psc.pointer = s.psc.pointer
  refind : t.psc.refind = s.psc.refind
  ctx : ∀ j, t.ctx j = if j = k then ctx' else s.ctx j
  cueWas : s.cue r slot = some cue
  change : ∃ g : Cue → Cue, (∀ c, (g c).vals = c.vals ∧ (g c).conformPending = c.conformPending ∧ (g c).loop = c.loop)
    ∧ g cue = cue' ∧ ∀ r', t.reel r' = if r' = r then (s.reel r).modCue slot g else s.reel r'
  told : Told ns s t

theorem Worked.cue {k : Fin 4} {r : Fin 8} {slot : Nat} {ctx' : Option Ctx} {cue cue' : Cue} {ns : List Notice}
    {es : List Instr} {s t : State} (h : Worked k r slot ctx' cue cue' ns es s t) (j : Nat) :
    t.cue r j = if j = slot then some cue' else s.cue r j := by
  obtain ⟨g, -, hg, hreel⟩ := h.change
  rw [State.cue, hreel, if_pos rfl, Reel.cue_modCue]
  split
  · next e => subst e; rw [show (s.reel r).cue j = some cue from h.cueWas, ← hg]; rfl
  · rfl

theorem Worked.edited {k : Fin 4} {r : Fin 8} {slot : Nat} {ctx' : Option Ctx} {cue cue' : Cue} {ns : List Notice}
    {es : List Instr} {s t : State} (h : Worked k r slot ctx' cue cue' ns es s t) {done : List Nat} {x : Reel}
    (hx : Reel.Edited done x (s.reel r)) : Reel.Edited done x (t.reel r) := by
  obtain ⟨g, hkeep, -, hreel⟩ := h.change
  rw [hreel, if_pos rfl]
  exact hx.modCue slot g hkeep

theorem Worked.vals {k : Fin 4} {r : Fin 8} {slot : Nat} {ctx' : Option Ctx} {cue cue' : Cue} {ns : List Notice}
    {es : List Instr} {s t : State} (h : Worked k r slot ctx' cue cue' ns es s t) : cue'.vals = cue.vals := by
  obtain ⟨g, hkeep, hg, -⟩ := h.change
  rw [← hg]; exact (hkeep cue).1

/-- Work that leaves the pass in flight. -/
theorem Worked.tended {k : Fin 4} {r : Fin 8} {slot : Nat} {ctx' : Option Ctx} {cue cue' : Cue} {ns : List Notice}
    {es : List Instr} {s t : State} (h : Worked k r slot ctx' cue cue' ns es s t) :
    Tended k r slot ctx' cue cue' ns es s t where
  outer := h.outer
  bare := h.bare
  raised := h.raised
  pointer := h.pointer
  refind := by rw [h.refind, h.vals]; simp
  ctx := h.ctx
  reels r' hr := by
    obtain ⟨g, -, -, hreel⟩ := h.change
    rw [hreel, if_neg hr]
  cueAt := by rw [h.cue, if_pos rfl]
  cues j hj := by rw [h.cue, if_neg hj]
  edited done x _ _ hx := (h.edited hx).mono fun k hk => List.mem_cons_of_mem _ hk
  told := h.told

/-- The take a context names, in the list of its cue. -/
theorem State.takeOf_eq {s : State} {c : Ctx} {cue : Cue} (h : s.cue c.reel c.slot = some cue) :
    s.takeOf c = c.take.bind fun m => cue.takes.find? fun x => decide (x.number = m) := by
  unfold State.takeOf Cue.take
  rw [h]
  cases c.take with
  | none => rfl
  | some m =>
    simp only [Option.bind_some]
    congr 1

/-- The end of a pass after work on it: the cue is settled, PASS_END raised and the context freed (R101 to R105). A pending
play reel is not yet looked at. -/
theorem Worked.ended {k : Fin 4} {c : Ctx} {cue cue' : Cue} {ns : List Notice} {es : List Instr} {s t : State}
    (h : Worked k c.reel c.slot (some c) cue cue' ns es s t) (hr : c.reel = s.cst.playReel) (b : Bool)
    (outcome : PassOutcome) :
    let u := t.settleCue b c.reel c.slot
    Tended k c.reel c.slot none cue (cue'.afterPass b)
      (ns ++ [.passEnd k c.reel c.loop outcome c.phase (c.take.bind fun m => cue'.takes.find? fun x => decide (x.number = m))])
      (es ++ [.freeHandover k]) s ((u.raiseEnd k c outcome (u.takeOf c)).freeCtx k) := by
  intro u
  have hcue : t.cue c.reel c.slot = some cue' := by rw [h.cue, if_pos rfl]
  have hplay : c.reel = t.cst.playReel := hr.trans (CueStore.playReel_of_bare h.bare).symm
  have hupsc : u.psc = _ := State.settleCue_psc (b := b) hcue hplay
  have hucue (j : Nat) : u.cue c.reel j = if j = c.slot then some (cue'.afterPass b) else t.cue c.reel j :=
    State.settleCue_cue hcue j
  have hureel (r' : Fin 8) : u.reel r' = _ := State.settleCue_reel (b := b) hcue r'
  have htake : u.takeOf c = c.take.bind fun m => cue'.takes.find? fun x => decide (x.number = m) := by
    rw [State.takeOf_eq ((hucue c.slot).trans (if_pos rfl)), Cue.afterPass_eq]
  rw [htake]
  generalize hend : (c.take.bind fun m => cue'.takes.find? fun x => decide (x.number = m)) = x
  have hreel (r' : Fin 8) : ((u.raiseEnd k c outcome x).freeCtx k).reel r' = u.reel r' := State.raiseEnd_reel _ _ _ _ _ _
  have hcue' (j : Nat) : ((u.raiseEnd k c outcome x).freeCtx k).cue c.reel j = u.cue c.reel j := by
    rw [State.cue, hreel]; rfl
  have hpsc : ((u.raiseEnd k c outcome x).freeCtx k).psc = { u.psc with ctxs := u.psc.ctxs.set k none } := by
    rw [State.freeCtx, State.post_psc, State.setCtx_psc, State.raiseEnd_psc]
  refine { outer := ?_, bare := ?_, raised := ?_, pointer := ?_, refind := ?_, ctx := fun j => ?_,
           reels := fun r' hne => ?_, cueAt := ?_, cues := fun j hj => ?_, edited := fun done y hy hnew hxy => ?_, told := ?_ }
  · rw [State.freeCtx_outer, State.raiseEnd_outer, State.settleCue_outer, h.outer]
  · show (u.raiseEnd k c outcome x).cst.bare = _
    rw [State.raiseEnd_cst, State.settleCue_bare, h.bare]
  · show (u.raiseEnd k c outcome x).raised ++ [_] = _
    rw [State.raiseEnd_raised, State.settleCue_raised, h.raised, List.append_assoc]
  · rw [hpsc, hupsc]; exact h.pointer
  · rw [hpsc, hupsc]
    show (t.psc.refind || _) = _
    rw [h.refind, h.vals]
  · show ((u.raiseEnd k c outcome x).setCtx k none).ctx j = _
    rw [State.ctx_setCtx]
    by_cases hj : j = k
    · rw [if_pos hj, if_pos hj]
    · rw [if_neg hj, if_neg hj, State.raiseEnd, State.raise_ctx, State.settleCue_ctx, h.ctx, if_neg hj]
  · rw [hreel, hureel, if_neg hne]
    exact h.tended.reels r' hne
  · rw [hcue', hucue, if_pos rfl]
  · rw [hcue', hucue, if_neg hj]
    exact h.tended.cues j hj
  · rw [hreel, hureel, if_pos rfl]
    exact ((h.edited hxy).applyVals hy _ hcue hnew).modCue _ _ fun d => ⟨rfl, rfl, rfl⟩
  · have hfree : Told [] (u.raiseEnd k c outcome x) ((u.raiseEnd k c outcome x).freeCtx k) := Told.of_lnk rfl rfl rfl
    have hraise : Told [.passEnd k c.reel c.loop outcome c.phase x] u (u.raiseEnd k c outcome x) := State.raise_told _ _
    simpa using (h.told.trans ((State.settleCue_told hcue).trans hraise)).trans hfree

end Sys2Proof.Machine
end

section
/-! The contexts tended one after the other, in index order, and the play reel that is applied where none is left ACTIVE (R8,
R91, R104). -/

namespace Sys2Proof.Machine

/-! ## One context -/

/-- What one event did to the pass of context `k`, in the terms of `PassWork`, with the play reel applied where it left no
context ACTIVE. -/
structure PassStep (k : Fin 4) (c : Ctx) (cue : Cue) (w : PassWork) (s t : State) : Prop where
  outer : t.outer = s.outer
  cst : t.cst = { s.cst with
    reels := t.cst.reels
    playReel := (s.setCtx k w.stays).switchTo.getD s.cst.playReel
    pendingPlay := if (s.setCtx k w.stays).switchTo.isSome then none else s.cst.pendingPlay }
  raised : t.raised = s.raised ++ w.events
  pointer : t.psc.pointer = s.psc.pointer
  refind : t.psc.refind
    = (s.psc.refind || decide (w.cue.vals.inPt ≠ cue.vals.inPt) || (s.setCtx k w.stays).switchTo.isSome)
  ctx : ∀ j, t.ctx j = if j = k then w.stays else s.ctx j
  reels : ∀ r', r' ≠ c.reel → t.reel r' = s.reel r'
  cueAt : t.cue c.reel c.slot = some w.cue
  cues : ∀ j, j ≠ c.slot → t.cue c.reel j = s.cue c.reel j
  edited : ∀ (done : List Nat) (x : Reel), x.lawful = true → c.slot ∉ done → Reel.Edited done x (s.reel c.reel) →
    Reel.Edited (c.slot :: done) x (t.reel c.reel)
  told : Told (w.notices ++ (s.setCtx k w.stays).switchTo.toList.map .reelSwitched) s t

theorem State.switchPlay_told (r : Fin 8) (s : State) : Told [.reelSwitched r] s (s.switchPlay r) := by
  unfold State.switchPlay
  refine Told.trans (ms := []) ?_ (State.raise_told _ _)
  exact Told.of_lnk rfl rfl rfl

theorem State.applyPendingPlay_told (s : State) : Told (s.switchTo.toList.map .reelSwitched) s s.applyPendingPlay := by
  rw [State.applyPendingPlay_eq]
  cases s.switchTo with
  | none => exact Told.refl s
  | some r => exact s.switchPlay_told r

/-- A pass that stays in flight leaves a context ACTIVE, and no play reel is applied. -/
theorem State.switchTo_setCtx_some (s : State) (k : Fin 4) (c : Ctx) : (s.setCtx k (some c)).switchTo = none := by
  unfold State.switchTo
  rw [if_neg]
  rw [State.allFree_iff]
  intro h
  have := h k
  rw [State.ctx_setCtx, if_pos rfl] at this
  cases this

theorem Tended.stays {k : Fin 4} {c c' : Ctx} {cue cue' : Cue} {ns : List Notice} {es : List Instr} {s t : State}
    (h : Tended k c.reel c.slot (some c') cue cue' ns es s t) :
    PassStep k c cue { stays := some c', cue := cue', notices := ns, events := es } s t where
  outer := h.outer
  cst := by
    rw [State.switchTo_setCtx_some]
    exact CueStore.eq_of_bare h.bare
  raised := h.raised
  pointer := h.pointer
  refind := by rw [State.switchTo_setCtx_some, h.refind]; simp
  ctx := h.ctx
  reels := h.reels
  cueAt := h.cueAt
  cues := h.cues
  edited := h.edited
  told := by rw [State.switchTo_setCtx_some]; simpa using h.told

/-- A context freed: a pending play reel is applied where it was the last ACTIVE one (R8). -/
theorem Tended.freed {k : Fin 4} {c : Ctx} {cue cue' : Cue} {ns : List Notice} {es : List Instr} {s u : State}
    (h : Tended k c.reel c.slot none cue cue' ns es s u) :
    PassStep k c cue { stays := none, cue := cue', notices := ns, events := es } s u.applyPendingPlay := by
  have hsw : u.switchTo = (s.setCtx k none).switchTo :=
    State.switchTo_congr (fun j => by rw [h.ctx, State.ctx_setCtx]) (CueStore.pendingPlay_of_bare h.bare)
  have hbare := CueStore.eq_of_bare h.bare
  have hpsc := u.applyPendingPlay_psc
  have hcst := u.applyPendingPlay_cst
  rw [hsw] at hpsc hcst
  exact
    { outer := u.applyPendingPlay_outer.trans h.outer
      cst := by rw [hcst, hbare]
      raised := u.applyPendingPlay_raised.trans h.raised
      pointer := by rw [hpsc]; exact h.pointer
      refind := by rw [hpsc]; show (u.psc.refind || _) = _; rw [h.refind]
      ctx := fun j => (u.applyPendingPlay_ctx j).trans (h.ctx j)
      reels := fun r' hr => (u.applyPendingPlay_reel r').trans (h.reels r' hr)
      cueAt := by rw [State.cue, State.applyPendingPlay_reel]; exact h.cueAt
      cues := fun j hj => by rw [State.cue, State.applyPendingPlay_reel]; exact h.cues j hj
      edited := fun done x hx hnew hxy => by rw [State.applyPendingPlay_reel]; exact h.edited done x hx hnew hxy
      told := by
        have := h.told.trans u.applyPendingPlay_told
        rwa [hsw] at this }

/-! ## All contexts -/

/-- The passes in flight, as far as the scheduler's work rests on it: each serves a cue of the play reel, which is PASSING, and
no two the same. -/
structure State.PassesMet (s : State) : Prop where
  reel : ∀ k c, s.ctx k = some c → c.reel = s.cst.playReel
  cue : ∀ k c, s.ctx k = some c → ∃ cue, s.cue s.cst.playReel c.slot = some cue ∧ cue.state.isPassing = true
  distinct : ∀ j k c d, s.ctx j = some c → s.ctx k = some d → c.slot = d.slot → j = k

/-- Lawful passes are met, and so are none. -/
theorem State.passesMet {s : State} (h : s.PassesLawful ∨ ∀ k : Fin 4, s.ctx k = none) : s.PassesMet := by
  rcases h with ⟨h1, h2, -⟩ | h
  · refine ⟨fun k c hk => (h1 k c hk).1, fun k c hk => ?_, h2⟩
    obtain ⟨hr, cue, hc, hp, -⟩ := h1 k c hk
    exact ⟨cue, hr ▸ hc, hp⟩
  · exact ⟨fun k c hk => by simp [h k] at hk, fun k c hk => by simp [h k] at hk, fun j k c d hj => by simp [h j] at hj⟩

/-- The work of `W` on the pass of a context, none where it is FREE. -/
def State.workOf (W : Fin 4 → Ctx → Cue → PassWork) (s : State) (k : Fin 4) : Option PassWork :=
  (s.ctx k).bind fun c => (s.cue c.reel c.slot).map fun cue => W k c cue

theorem State.workOf_none {W : Fin 4 → Ctx → Cue → PassWork} {s : State} {k : Fin 4} (h : s.ctx k = none) :
    s.workOf W k = none := by
  simp [State.workOf, h]

theorem State.workOf_some {W : Fin 4 → Ctx → Cue → PassWork} {s : State} {k : Fin 4} {c : Ctx} {cue : Cue}
    (h : s.ctx k = some c) (hc : s.cue c.reel c.slot = some cue) : s.workOf W k = some (W k c cue) := by
  simp [State.workOf, h, hc]

/-- The play reel applied when the passes of the contexts `ks` have been worked on: the pending one, where one of them was
ACTIVE and no context is left so (R8). -/
def State.switchAfter (ks : List (Fin 4)) (s t : State) : Option (Fin 8) :=
  if ks.any (fun k => (s.ctx k).isSome) && t.allFree then s.cst.pendingPlay else none

/-- The work `W` has been done on the passes of the contexts `ks`. -/
structure Passed (W : Fin 4 → Ctx → Cue → PassWork) (ks : List (Fin 4)) (s t : State) : Prop where
  outer : t.outer = s.outer
  cst : t.cst = { s.cst with
    reels := t.cst.reels
    playReel := (State.switchAfter ks s t).getD s.cst.playReel
    pendingPlay := if (State.switchAfter ks s t).isSome then none else s.cst.pendingPlay }
  raised : t.raised = s.raised ++ (ks.filterMap (s.workOf W)).flatMap fun w => w.events
  pointer : t.psc.pointer = s.psc.pointer
  refind : t.psc.refind = (s.psc.refind || decide ((t.reel s.cst.playReel).inPoints ≠ s.playReel.inPoints)
    || (State.switchAfter ks s t).isSome)
  ctx : ∀ j, t.ctx j = if j ∈ ks then (s.workOf W j).bind fun w => w.stays else s.ctx j
  reels : ∀ r', r' ≠ s.cst.playReel → t.reel r' = s.reel r'
  cueAt : ∀ k ∈ ks, ∀ c cue, s.ctx k = some c → s.cue s.cst.playReel c.slot = some cue →
    t.cue s.cst.playReel c.slot = some (W k c cue).cue
  cues : ∀ slot, (∀ k ∈ ks, ∀ c, s.ctx k = some c → c.slot ≠ slot) → t.cue s.cst.playReel slot = s.cue s.cst.playReel slot
  edited : ∃ done : List Nat, (∀ slot ∈ done, ∃ k ∈ ks, ∃ c, s.ctx k = some c ∧ c.slot = slot)
    ∧ Reel.Edited done s.playReel (t.reel s.cst.playReel)
  told : Told ((ks.filterMap (s.workOf W)).flatMap (fun w => w.notices)
    ++ (State.switchAfter ks s t).toList.map .reelSwitched) s t

theorem Passed.nil (W : Fin 4 → Ctx → Cue → PassWork) (s : State) : Passed W [] s s where
  outer := rfl
  cst := rfl
  raised := by simp
  pointer := rfl
  refind := by simp [State.switchAfter, State.playReel]
  ctx j := rfl
  reels r' _ := rfl
  cueAt k hk := by cases hk
  cues slot _ := rfl
  edited := ⟨[], fun slot h => (by cases h), Reel.Edited.refl _⟩
  told := by simpa [State.switchAfter] using Told.refl s

/-- A FREE context adds nothing. -/
theorem Passed.skip {W : Fin 4 → Ctx → Cue → PassWork} {ks : List (Fin 4)} {s t : State} (h : Passed W ks s t) {k : Fin 4}
    (hk : s.ctx k = none) : Passed W (ks ++ [k]) s t := by
  have hsw : State.switchAfter (ks ++ [k]) s t = State.switchAfter ks s t := by simp [State.switchAfter, hk]
  have hworks : (ks ++ [k]).filterMap (s.workOf W) = ks.filterMap (s.workOf W) := by simp [State.workOf_none hk]
  obtain ⟨done, hdone, hedited⟩ := h.edited
  refine { h with cst := ?_, raised := ?_, refind := ?_, ctx := fun j => ?_, cueAt := fun j hj => ?_, cues := fun slot hs => ?_,
                  edited := ⟨done, fun slot hs => ?_, hedited⟩, told := ?_ }
  · rw [hsw]; exact h.cst
  · rw [hworks]; exact h.raised
  · rw [hsw]; exact h.refind
  · rw [h.ctx]
    by_cases hj : j ∈ ks
    · simp [hj]
    · by_cases e : j = k
      · simp [e, hk, State.workOf_none hk]
      · simp [hj, e]
  · rcases List.mem_append.mp hj with hj | hj
    · exact h.cueAt j hj
    · obtain rfl := List.mem_singleton.mp hj
      intro c cue hc
      simp [hk] at hc
  · exact h.cues slot fun j hj => hs j (List.mem_append_left _ hj)
  · obtain ⟨j, hj, hc⟩ := hdone slot hs
    exact ⟨j, List.mem_append_left _ hj, hc⟩
  · rw [hsw, hworks]; exact h.told

/-- While a context not yet worked on is ACTIVE no play reel has been applied. -/
theorem Passed.playReel {W : Fin 4 → Ctx → Cue → PassWork} {ks : List (Fin 4)} {s t : State} (h : Passed W ks s t)
    {k : Fin 4} {c : Ctx} (hk : t.ctx k = some c) :
    State.switchAfter ks s t = none ∧ t.cst.playReel = s.cst.playReel ∧ t.cst.pendingPlay = s.cst.pendingPlay := by
  have hfree : t.allFree = false := by
    rw [← Bool.not_eq_true, State.allFree_iff]
    intro hall
    simp [hall k] at hk
  have hsw : State.switchAfter ks s t = none := by simp [State.switchAfter, hfree]
  have := h.cst
  rw [hsw] at this
  refine ⟨hsw, ?_, ?_⟩ <;> rw [this] <;> rfl

/-- Values of the cues of two reels with the same slots agree in slot order where they agree slot by slot. -/
theorem Reel.map_eq_of_lookup {α : Type} (g : Cue → α) {x y : Reel} (hk : y.cues.map Prod.fst = x.cues.map Prod.fst)
    (hn : (x.cues.map Prod.fst).Nodup) (h : ∀ k, (y.cue k).map g = (x.cue k).map g) :
    (y.cues.map fun p => g p.2) = x.cues.map fun p => g p.2 := by
  have hlist (z : Reel) (hz : (z.cues.map Prod.fst).Nodup) :
      (z.cues.map fun p => some (g p.2)) = (z.cues.map Prod.fst).map fun k => (z.cue k).map g := by
    rw [List.map_map]
    refine List.map_congr_left fun p hp => ?_
    rw [Function.comp, Reel.cue_of_mem hz hp]
    rfl
  have he : (y.cues.map fun p => some (g p.2)) = x.cues.map fun p => some (g p.2) := by
    rw [hlist y (hk ▸ hn), hlist x hn, hk]
    exact List.map_congr_left fun k _ => h k
  refine List.map_injective_iff.mpr (Option.some_injective α) ?_
  rw [List.map_map, List.map_map]
  exact he

/-- One context more. -/
theorem Passed.step {W : Fin 4 → Ctx → Cue → PassWork} {ks : List (Fin 4)} {s t u : State} (h : Passed W ks s t)
    (hs : s.playReel.lawful = true) (hmet : s.PassesMet) {k : Fin 4} {c : Ctx} {cue : Cue} (hk : s.ctx k = some c)
    (hc : s.cue s.cst.playReel c.slot = some cue) (hnew : k ∉ ks) (hstep : PassStep k c cue (W k c cue) t u) :
    Passed W (ks ++ [k]) s u := by
  have hr : c.reel = s.cst.playReel := hmet.reel k c hk
  have htk : t.ctx k = some c := by rw [h.ctx, if_neg hnew, hk]
  obtain ⟨hsw, hplay, hpend⟩ := h.playReel htk
  have hwork : s.workOf W k = some (W k c cue) := State.workOf_some hk (by rw [hr]; exact hc)
  have hworks : (ks ++ [k]).filterMap (s.workOf W) = ks.filterMap (s.workOf W) ++ [W k c cue] := by simp [hwork]
  have hswitch : State.switchAfter (ks ++ [k]) s u = (t.setCtx k (W k c cue).stays).switchTo := by
    have hfree : u.allFree = (t.setCtx k (W k c cue).stays).allFree := by
      simp only [State.allFree, hstep.ctx, State.ctx_setCtx]
    simp [State.switchAfter, State.switchTo, hk, hfree, hpend]
  obtain ⟨done, hdone, hedited⟩ := h.edited
  have hslot : c.slot ∉ done := by
    intro hmem
    obtain ⟨j, hj, d, hd, hds⟩ := hdone _ hmem
    exact hnew (hmet.distinct j k d c hd hk hds ▸ hj)
  have hstepEdited := hstep.edited done s.playReel hs hslot
  rw [hr] at hstepEdited
  have hedited' := hstepEdited hedited
  have htcue (slot : Nat) : (∀ j ∈ ks, ∀ d, s.ctx j = some d → d.slot ≠ slot) →
      t.cue s.cst.playReel slot = s.cue s.cst.playReel slot := h.cues slot
  have hcold : t.cue s.cst.playReel c.slot = some cue := by
    rw [htcue c.slot fun j hj d hd e => hnew (hmet.distinct j k d c hd hk e ▸ hj), hc]
  have hcueAt := hstep.cueAt
  have hcues := hstep.cues
  have hreels := hstep.reels
  rw [hr] at hcueAt hcues hreels
  have hinPoints : decide ((u.reel s.cst.playReel).inPoints ≠ s.playReel.inPoints)
      = (decide ((t.reel s.cst.playReel).inPoints ≠ s.playReel.inPoints)
        || decide ((W k c cue).cue.vals.inPt ≠ cue.vals.inPt)) := by
    by_cases hv : (W k c cue).cue.vals.inPt = cue.vals.inPt
    · have : (u.reel s.cst.playReel).inPoints = (t.reel s.cst.playReel).inPoints := by
        refine Reel.map_eq_of_lookup (fun d => d.vals.inPt) ?_ ?_ fun j => ?_
        · rw [Reel.keys_of_labels hedited'.labels, Reel.keys_of_labels hedited.labels]
        · rw [Reel.keys_of_labels hedited.labels]; exact Reel.keys_nodup hs
        · by_cases hj : j = c.slot
          · subst hj
            show (u.cue _ _).map _ = (t.cue _ _).map _
            rw [hcueAt, hcold, Option.map_some, Option.map_some, hv]
          · show (u.cue _ _).map _ = (t.cue _ _).map _
            rw [hcues j hj]
      rw [this]; simp [hv]
    · have : (u.reel s.cst.playReel).inPoints ≠ s.playReel.inPoints := by
        refine Reel.map_applyVals_ne (·.inPt) (slot := c.slot) (c := cue) (v := (W k c cue).cue.vals) hedited'.labels ?_ hv ?_
        · rw [show s.playReel.cue c.slot = some cue from hc]; rfl
        · rw [show (u.reel s.cst.playReel).cue c.slot = some _ from hcueAt]; rfl
      simp [this, hv]
  refine { outer := hstep.outer.trans h.outer, cst := ?_, raised := ?_, pointer := hstep.pointer.trans h.pointer, refind := ?_,
           ctx := fun j => ?_, reels := fun r' hr' => (hreels r' hr').trans (h.reels r' hr'), cueAt := fun j hj d cue' hd hc' => ?_,
           cues := fun slot hall => ?_, edited := ⟨c.slot :: done, fun slot hmem => ?_, hedited'⟩, told := ?_ }
  · rw [hswitch, hstep.cst, hplay, hpend, h.cst]
  · rw [hstep.raised, h.raised, hworks]; simp
  · rw [hswitch, hstep.refind, h.refind, hsw, hinPoints]
    simp [Bool.or_assoc]
  · rw [hstep.ctx, h.ctx]
    by_cases hj : j = k
    · subst hj; simp [hwork]
    · simp [hj]
  · rcases List.mem_append.mp hj with hj | hj
    · have hne : d.slot ≠ c.slot := fun e => hnew (hmet.distinct j k d c hd hk e ▸ hj)
      rw [hcues _ hne]
      exact h.cueAt j hj d cue' hd hc'
    · obtain rfl := List.mem_singleton.mp hj
      obtain rfl := Option.some.inj (hk.symm.trans hd)
      obtain rfl := Option.some.inj (hc.symm.trans hc')
      exact hcueAt
  · have hne : slot ≠ c.slot := fun e => hall k (by simp) c hk e.symm
    rw [hcues slot hne]
    exact htcue slot fun j hj => hall j (List.mem_append_left _ hj)
  · rcases List.mem_cons.mp hmem with rfl | hmem
    · exact ⟨k, by simp, c, hk, rfl⟩
    · obtain ⟨j, hj, hd⟩ := hdone slot hmem
      exact ⟨j, List.mem_append_left _ hj, hd⟩
  · have := h.told.trans hstep.told
    rw [hsw] at this
    rw [hswitch, hworks]
    simpa using this

/-- The work `W` done on several contexts, one after the other. -/
theorem Passed.foldl {W : Fin 4 → Ctx → Cue → PassWork} {f : State → Fin 4 → State} {s : State}
    (hs : s.playReel.lawful = true) (hmet : s.PassesMet) (hfree : ∀ u k, u.ctx k = none → f u k = u)
    (hf : ∀ u k c cue, u.outer = s.outer → u.ctx k = some c → c.reel = u.cst.playReel → u.cue c.reel c.slot = some cue →
      PassStep k c cue (W k c cue) u (f u k)) :
    ∀ (ks done : List (Fin 4)) (t : State), Passed W done s t → (done ++ ks).Nodup → Passed W (done ++ ks) s (ks.foldl f t)
  | [], done, t, h, _ => by simpa using h
  | k :: ks, done, t, h, hn => by
    have hk : k ∉ done := fun e => (List.disjoint_of_nodup_append hn) e List.mem_cons_self
    have hn' : (done ++ [k] ++ ks).Nodup := by simpa using hn
    have hnext : Passed W (done ++ [k]) s (f t k) := by
      cases hc : s.ctx k with
      | none =>
        rw [hfree t k (by rw [h.ctx, if_neg hk, hc])]
        exact h.skip hc
      | some c =>
        have htk : t.ctx k = some c := by rw [h.ctx, if_neg hk, hc]
        obtain ⟨cue, hcue, -⟩ := hmet.cue k c hc
        have hr := hmet.reel k c hc
        refine h.step hs hmet hc hcue hk (hf t k c cue h.outer htk (hr.trans (h.playReel htk).2.1.symm) ?_)
        rw [hr, h.cues c.slot fun j hj d hd e => hk (hmet.distinct j k d c hd hc e ▸ hj)]
        exact hcue
    have := Passed.foldl hs hmet hfree hf ks (done ++ [k]) (f t k) hnext hn'
    simpa using this

end Sys2Proof.Machine
end

section
/-! The next-cue pointer (R86 to R89): step 2 of a frame edge meets `PointerWork`, and changes nothing but the pointer, the
mark and the waited flags of the cues it tests. -/

namespace Sys2Proof.Machine

/-! ## Lists cut by a test -/

theorem take_length_takeWhile {α : Type} (p : α → Bool) (l : List α) : l.take (l.takeWhile p).length = l.takeWhile p :=
  (List.prefix_iff_eq_take.mp (List.takeWhile_prefix p)).symm

theorem drop_length_takeWhile {α : Type} (p : α → Bool) (l : List α) : l.drop (l.takeWhile p).length = l.dropWhile p := by
  refine List.append_cancel_left (as := l.takeWhile p) ?_
  calc l.takeWhile p ++ l.drop (l.takeWhile p).length
      = l.take (l.takeWhile p).length ++ l.drop (l.takeWhile p).length := by rw [take_length_takeWhile]
    _ = l := List.take_append_drop _ l
    _ = l.takeWhile p ++ l.dropWhile p := List.takeWhile_append_dropWhile.symm

theorem head?_dropWhile {α : Type} (p : α → Bool) (l : List α) : ∀ x ∈ (l.dropWhile p).head?, p x = false := by
  intro x hx
  have := List.head?_dropWhile_not p l
  rw [Option.mem_def.mp hx] at this
  exact this

/-! ## The test of one cue -/

/-- The test of a cue by the pointer: its waited flag is cleared, and `tell` says which notice it raises. -/
def State.testCue (tell : Cue → Option Notice) (s : State) (slot : Nat) : State :=
  match s.cue s.cst.playReel slot with
  | none => s
  | some c =>
    let t := s.modCue s.cst.playReel slot Cue.unwaited
    match tell c with
    | none => t
    | some n => t.raise n

/-- Whether a cue is ARMED. -/
def Cue.isArmed (c : Cue) : Bool :=
  match c.state with
  | .armed _ => true
  | .ready | .passing _ | .done => false

/-- What a re-found pointer raises for a cue before it, on frame `n` in a reel with delta `delta` (R88). -/
def Cue.lateNotice (delta : Int) (n : Nat) (c : Cue) : Option Notice :=
  let d : Int := if c.conformPending then delta else 0
  if c.isArmed && decide ((c.vals.inPt : Int) + d ≤ (n : Int) ∧ (n : Int) < (c.vals.outPt : Int) + d) then
    some (.missed c.loop .lateStart)
  else none

/-- What an advancing pointer raises for a cue it passes (R89). -/
def Cue.passedNotice (c : Cue) : Option Notice :=
  if c.isArmed then some (.missed c.loop (if c.waited then .noContext else .notEntered)) else none

theorem State.testLate_eq (n : Nat) (s : State) (slot : Nat) :
    s.testLate n slot = s.testCue (Cue.lateNotice s.playReel.delta n) slot := by
  unfold State.testLate State.testCue
  dsimp only
  cases hc : s.cue s.cst.playReel slot with
  | none => rfl
  | some c =>
    have hdelta : s.playReel.delta = (s.reel s.cst.playReel).delta := rfl
    simp only [Cue.lateNotice, Bool.decide_and, hdelta]
    generalize (if c.conformPending = true then (s.reel s.cst.playReel).delta else 0) = d
    generalize (decide ((c.vals.inPt : Int) + d ≤ (n : Int)) && decide ((n : Int) < (c.vals.outPt : Int) + d)) = inside
    obtain ⟨loop, vals, state⟩ := c
    cases state with
    | armed kind => cases inside <;> rfl
    | ready | passing kind | done => cases inside <;> rfl

theorem State.testPassed_eq (s : State) (slot : Nat) : s.testPassed slot = s.testCue Cue.passedNotice slot := by
  unfold State.testPassed State.testCue
  dsimp only
  cases hc : s.cue s.cst.playReel slot with
  | none => rfl
  | some c =>
    obtain ⟨loop, vals, state⟩ := c
    cases state <;> rfl

/-! ## The tests of several cues -/

/-- The cues in the slots `l` have been tested, each once. -/
structure Tested (tell : Cue → Option Notice) (l : List Nat) (s t : State) : Prop where
  outer : t.outer = s.outer
  bare : t.cst.bare = s.cst.bare
  raised : t.raised = s.raised
  psc : t.psc = s.psc
  reels : ∀ r, r ≠ s.cst.playReel → t.reel r = s.reel r
  header : { t.reel s.cst.playReel with cues := [] } = { s.playReel with cues := [] }
  cues : ∀ slot, t.cue s.cst.playReel slot
    = if slot ∈ l then (s.cue s.cst.playReel slot).map Cue.unwaited else s.cue s.cst.playReel slot
  edited : ∀ (done : List Nat) (x : Reel), Reel.Edited done x s.playReel → Reel.Edited done x (t.reel s.cst.playReel)
  told : Told (l.filterMap fun slot => (s.cue s.cst.playReel slot).bind tell) s t

theorem Tested.nil (tell : Cue → Option Notice) (s : State) : Tested tell [] s s where
  outer := rfl
  bare := rfl
  raised := rfl
  psc := rfl
  reels _ _ := rfl
  header := rfl
  cues slot := by simp
  edited _ _ h := h
  told := Told.refl s

theorem Tested.conform {tell : Cue → Option Notice} {l : List Nat} {s t : State} (h : Tested tell l s t) :
    (t.reel s.cst.playReel).conform = s.playReel.conform ∧ (t.reel s.cst.playReel).order = s.playReel.order := by
  have := h.header
  simp only [Reel.mk.injEq] at this
  exact ⟨by simp [this], by simp [this]⟩

/-- A test of one cue more. -/
theorem Tested.step {tell : Cue → Option Notice} {l : List Nat} {s t : State} (h : Tested tell l s t) {slot : Nat}
    (hnew : slot ∉ l) : Tested tell (l ++ [slot]) s (t.testCue tell slot) := by
  have hplay : t.cst.playReel = s.cst.playReel := CueStore.playReel_of_bare h.bare
  have hcue : t.cue s.cst.playReel slot = s.cue s.cst.playReel slot := by rw [h.cues, if_neg hnew]
  cases hc : s.cue s.cst.playReel slot with
  | none =>
    have ht : t.testCue tell slot = t := by
      simp only [State.testCue, hplay, hcue, hc]
    rw [ht]
    refine { h with cues := fun j => ?_, told := ?_ }
    · rw [h.cues]
      by_cases hj : j = slot
      · subst hj; simp [hnew, hc]
      · simp [hj]
    · simpa [hc] using h.told
  | some c =>
    let u := t.modCue s.cst.playReel slot Cue.unwaited
    have ht : t.testCue tell slot = (tell c).elim u fun n => u.raise n := by
      simp only [State.testCue, hplay, hcue, hc]
      cases tell c <;> rfl
    have htold : Told (tell c).toList u (t.testCue tell slot) := by
      rw [ht]
      cases tell c with
      | none => exact Told.refl u
      | some n => exact State.raise_told n u
    have hsame : (t.testCue tell slot).outer = u.outer ∧ (t.testCue tell slot).cst = u.cst
        ∧ (t.testCue tell slot).raised = u.raised ∧ (t.testCue tell slot).psc = u.psc := by
      rw [ht]
      cases tell c with
      | none => exact ⟨rfl, rfl, rfl, rfl⟩
      | some n => exact ⟨State.raise_outer n u, State.raise_cst n u, State.raise_raised n u, State.raise_psc n u⟩
    obtain ⟨houter, hcst, hraised, hpsc⟩ := hsame
    have hreel (r : Fin 8) : (t.testCue tell slot).reel r = u.reel r := by rw [State.reel, State.reel, hcst]
    have hureel : u.reel s.cst.playReel = (t.reel s.cst.playReel).modCue slot Cue.unwaited := by
      show (t.modReel _ _).reel _ = _
      rw [State.reel_modReel, if_pos rfl]
    have hother (r : Fin 8) (hr : r ≠ s.cst.playReel) : u.reel r = t.reel r := by
      show (t.modReel _ _).reel _ = _
      rw [State.reel_modReel, if_neg hr]
    refine { outer := houter.trans h.outer, bare := ?_, raised := hraised.trans h.raised, psc := hpsc.trans h.psc,
             reels := fun r hr => ?_, header := ?_, cues := fun j => ?_, edited := fun done x hx => ?_, told := ?_ }
    · rw [hcst]; exact h.bare
    · rw [hreel, hother r hr, h.reels r hr]
    · rw [hreel, hureel]; exact h.header
    · rw [State.cue, hreel, hureel, Reel.cue_modCue]
      rw [show (t.reel s.cst.playReel).cue j = t.cue s.cst.playReel j from rfl, h.cues]
      by_cases hj : j = slot
      · subst hj; simp [hnew]
      · simp [hj]
    · rw [hreel, hureel]
      exact (h.edited done x hx).modCue slot _ fun c => ⟨rfl, rfl, rfl⟩
    · have hu : Told [] t u := Told.of_lnk rfl rfl rfl
      have := h.told.trans (hu.trans htold)
      rw [List.filterMap_append]
      cases htell : tell c <;> simpa [hc, htell] using this

/-- The tests of the cues of distinct slots, one after the other. -/
theorem Tested.foldl {tell : Cue → Option Notice} {f : State → Nat → State} {s : State}
    (hf : ∀ u slot, u.cst.bare = s.cst.bare → (u.reel s.cst.playReel).conform = s.playReel.conform →
      f u slot = u.testCue tell slot) :
    ∀ (l done : List Nat) (t : State), Tested tell done s t → (done ++ l).Nodup → Tested tell (done ++ l) s (l.foldl f t)
  | [], done, t, h, _ => by simpa using h
  | slot :: l, done, t, h, hn => by
    have hnew : slot ∉ done := fun e => (List.disjoint_of_nodup_append hn) e List.mem_cons_self
    have hstep := h.step hnew
    rw [← hf t slot h.bare h.conform.1] at hstep
    have := Tested.foldl hf l (done ++ [slot]) (f t slot) hstep (by simpa using hn)
    simpa using this

theorem State.testLate_foldl (n : Nat) (s : State) (l : List Nat) (hn : l.Nodup) :
    Tested (Cue.lateNotice s.playReel.delta n) l s (l.foldl (State.testLate n) s) := by
  refine Tested.foldl (fun u slot hbare hconf => ?_) l [] s (Tested.nil _ s) hn
  rw [State.testLate_eq]
  have : u.playReel.delta = s.playReel.delta := by
    rw [State.playReel, CueStore.playReel_of_bare hbare, Reel.delta, hconf]; rfl
  rw [this]

theorem State.testPassed_foldl (s : State) (l : List Nat) (hn : l.Nodup) :
    Tested Cue.passedNotice l s (l.foldl State.testPassed s) :=
  Tested.foldl (fun u slot _ _ => State.testPassed_eq u slot) l [] s (Tested.nil _ s) hn

/-! ## Step 2 of a frame edge -/

theorem State.refindNow_iff (s : State) (e : FrameEdge) :
    s.refindNow e = true ↔ RefoundAt e s.pos.rate s.psc.pointer s.psc.refind := by
  have hday : 0 < s.pos.rate.fDay := by cases s.pos.rate <;> decide
  have hcross : crossesMidnight s.pos.rate e = true
      ↔ (e.dir = .forward ∧ e.n = 0) ∨ (e.dir = .reverse ∧ e.n + 1 = s.pos.rate.fDay) := by
    unfold crossesMidnight
    cases e.dir <;> simp; omega
  simp only [State.refindNow, RefoundAt, Bool.or_eq_true, Option.isNone_iff_eq_none, hcross, or_assoc]

/-- Step 2 of a frame edge turned `s` into `t`: the pointer is `q`, the cues of the slots `tested` were tested, and `ns`
raised. -/
structure Pointed (q : Nat) (tested : List Nat) (ns : List Notice) (s t : State) : Prop where
  outer : t.outer = s.outer
  bare : t.cst.bare = s.cst.bare
  raised : t.raised = s.raised
  ctxs : t.psc.ctxs = s.psc.ctxs
  pointer : t.psc.pointer = some q
  refind : t.psc.refind = false
  reels : ∀ r, r ≠ s.cst.playReel → t.reel r = s.reel r
  header : { t.reel s.cst.playReel with cues := [] } = { s.playReel with cues := [] }
  cues : ∀ slot, t.cue s.cst.playReel slot
    = if slot ∈ tested then (s.cue s.cst.playReel slot).map Cue.unwaited else s.cue s.cst.playReel slot
  edited : ∀ (done : List Nat) (x : Reel), Reel.Edited done x s.playReel → Reel.Edited done x (t.reel s.cst.playReel)
  told : Told ns s t
  before : ∀ slot ∈ tested, slot ∈ s.playReel.order.take q

/-- The tests made from a state that differs from `s` in the pointer and the mark alone. -/
theorem Tested.pointed {tell : Cue → Option Notice} {tested : List Nat} {s t : State} {q : Nat}
    (h : Tested tell tested { s with psc := { s.psc with pointer := some q, refind := false } } t)
    (hbefore : ∀ slot ∈ tested, slot ∈ s.playReel.order.take q) :
    Pointed q tested (tested.filterMap fun slot => (s.cue s.cst.playReel slot).bind tell) s t where
  outer := h.outer
  bare := h.bare
  raised := h.raised
  ctxs := by rw [h.psc]
  pointer := by rw [h.psc]
  refind := by rw [h.psc]
  reels := h.reels
  header := h.header
  cues := h.cues
  edited := h.edited
  told := by
    refine Told.trans (ms := []) ?_ h.told
    exact Told.of_lnk rfl rfl rfl
  before := hbefore

/-! ## The three ways of the pointer -/

/-- The pointer re-found (R88). -/
theorem State.refindPointer_pointed (e : FrameEdge) (waited : Nat → Bool) (s : State) (hn : s.playReel.order.Nodup)
    (hfound : RefoundAt e s.pos.rate s.psc.pointer s.psc.refind) :
    ∃ q tested ns, Pointed q tested ns s (s.refindPointer e.n)
      ∧ PointerWork e s.pos.rate s.playReel waited s.psc.pointer s.psc.refind q tested ns := by
  let before (slot : Nat) : Bool := decide (s.playReel.key slot ≤ (e.n : Int))
  have hq : s.playReel.positionOf e.n = (s.playReel.order.takeWhile before).length := rfl
  refine ⟨s.playReel.positionOf e.n, s.playReel.order.take (s.playReel.positionOf e.n), _,
    (State.testLate_foldl e.n _ _ (hn.sublist (List.take_sublist _ _))).pointed fun slot h => h, ?_⟩
  refine ⟨fun _ => ⟨?_, fun slot h => ?_, fun slot h => ?_, rfl, ?_⟩, fun h => absurd hfound h⟩
  · rw [hq]; exact (List.takeWhile_prefix before).length_le
  · rw [hq, take_length_takeWhile] at h
    simpa [before] using List.mem_takeWhile_imp h
  · rw [hq, drop_length_takeWhile] at h
    simpa [before] using head?_dropWhile before _ slot h
  · refine List.filterMap_congr fun slot _ => congrArg _ (funext fun c => rfl)

/-- The pointer moved forward (R87, R89). -/
theorem State.movePointer_forward {e : FrameEdge} (he : e.dir = .forward) (waited : Nat → Bool) (s : State)
    (hw : ∀ slot c, s.cue s.cst.playReel slot = some c → waited slot = c.waited) (hn : s.playReel.order.Nodup) {p : Nat}
    (hp : s.psc.pointer = some p) (hfound : ¬ RefoundAt e s.pos.rate s.psc.pointer s.psc.refind) :
    ∃ q tested ns, Pointed q tested ns s (s.movePointer e p)
      ∧ PointerWork e s.pos.rate s.playReel waited s.psc.pointer s.psc.refind q tested ns := by
  let before (slot : Nat) : Bool := decide (s.playReel.key slot ≤ (e.n : Int))
  let passed := (s.playReel.order.drop p).takeWhile before
  have hmark : s.psc.refind = false := Bool.not_eq_true _ ▸ fun h => hfound (.inr (.inl h))
  have hmove : s.movePointer e p = passed.foldl State.testPassed
      { s with psc := { s.psc with pointer := some (p + passed.length), refind := false } } := by
    rw [← hmark]
    simp only [State.movePointer, he]
    rfl
  have htake : (s.playReel.order.drop p).take passed.length = passed := take_length_takeWhile _ _
  have hsub : passed.Sublist s.playReel.order := (List.takeWhile_prefix _).sublist.trans (List.drop_sublist _ _)
  rw [hmove]
  refine ⟨p + passed.length, passed, _, (State.testPassed_foldl _ _ (hn.sublist hsub)).pointed fun slot h => ?_, ?_⟩
  · rw [List.take_add, htake]
    exact List.mem_append_right _ h
  refine ⟨fun h => absurd h hfound, fun _ p' hp' hle => ?_⟩
  obtain rfl := Option.some.inj (hp.symm.trans hp')
  refine ⟨fun _ => ⟨Nat.le_add_right _ _, ?_, ?_, fun slot h => ?_, fun slot h => ?_, ?_⟩, fun h => by simp [he] at h⟩
  · have := (List.takeWhile_prefix (l := s.playReel.order.drop p) before).length_le
    rw [List.length_drop] at this
    exact (Nat.add_le_add_left this p).trans (by omega)
  · rw [Nat.add_sub_cancel_left, htake]
  · simpa [before] using List.mem_takeWhile_imp h
  · rw [← List.drop_drop, drop_length_takeWhile] at h
    simpa [before] using head?_dropWhile before _ slot h
  · refine List.filterMap_congr fun slot _ => ?_
    show (s.playReel.cue slot).bind _ = (s.playReel.cue slot).bind _
    cases hc : s.playReel.cue slot with
    | none => rfl
    | some c =>
      simp only [Option.bind_some, hw slot c hc]
      rfl

/-- The pointer moved back (R87). -/
theorem State.movePointer_reverse {e : FrameEdge} (he : e.dir = .reverse) (waited : Nat → Bool) (s : State) {p : Nat}
    (hp : s.psc.pointer = some p) (hfound : ¬ RefoundAt e s.pos.rate s.psc.pointer s.psc.refind) :
    ∃ q tested ns, Pointed q tested ns s (s.movePointer e p)
      ∧ PointerWork e s.pos.rate s.playReel waited s.psc.pointer s.psc.refind q tested ns := by
  let after (slot : Nat) : Bool := decide ((e.n : Int) < s.playReel.key slot)
  let l := (s.playReel.order.take p).reverse
  let back := l.takeWhile after
  have hmark : s.psc.refind = false := Bool.not_eq_true _ ▸ fun h => hfound (.inr (.inl h))
  have hmove : s.movePointer e p = { s with psc := { s.psc with pointer := some (p - back.length), refind := false } } := by
    rw [← hmark]
    simp only [State.movePointer, he]
    rfl
  have hnone : Tested Cue.passedNotice [] { s with psc := { s.psc with pointer := some (p - back.length), refind := false } }
      (s.movePointer e p) := by
    rw [hmove]; exact Tested.nil _ _
  refine ⟨p - back.length, [], [], hnone.pointed fun slot h => absurd h List.not_mem_nil, ?_⟩
  refine ⟨fun h => absurd h hfound, fun _ p' hp' hle => ?_⟩
  obtain rfl := Option.some.inj (hp.symm.trans hp')
  have hcut : s.playReel.order.take p = (l.dropWhile after).reverse ++ back.reverse := by
    rw [← List.reverse_append, List.takeWhile_append_dropWhile, List.reverse_reverse]
  have hlen : (l.dropWhile after).reverse.length = p - back.length := by
    have := congrArg List.length hcut
    rw [List.length_append, List.length_reverse (as := back), List.length_take, Nat.min_eq_left hle] at this
    omega
  refine ⟨fun h => by simp [he] at h, fun _ => ⟨Nat.sub_le _ _, fun slot h => ?_, fun slot h => ?_, rfl, rfl⟩⟩
  · rw [hcut, ← hlen, List.drop_left, List.mem_reverse] at h
    simpa [after] using List.mem_takeWhile_imp h
  · have : s.playReel.order.take (p - back.length) = (l.dropWhile after).reverse := by
      rw [← Nat.min_eq_left (Nat.sub_le p back.length), ← List.take_take, hcut, ← hlen, List.take_left]
    rw [this, List.getLast?_reverse] at h
    simpa [after] using head?_dropWhile after _ slot h

/-- Step 2 of a frame edge finds the pointer as `PointerWork` says (R86 to R89). -/
theorem State.pointerWork_pointed (e : FrameEdge) (waited : Nat → Bool) (s : State) (hn : s.playReel.order.Nodup)
    (hw : ∀ slot c, s.cue s.cst.playReel slot = some c → waited slot = c.waited) :
    ∃ q tested ns, Pointed q tested ns s (s.pointerWork e)
      ∧ PointerWork e s.pos.rate s.playReel waited s.psc.pointer s.psc.refind q tested ns := by
  unfold State.pointerWork
  by_cases hfound : s.refindNow e = true
  · rw [if_pos hfound]
    exact s.refindPointer_pointed e waited hn ((State.refindNow_iff s e).mp hfound)
  · rw [if_neg hfound]
    rw [State.refindNow_iff] at hfound
    cases hp : s.psc.pointer with
    | none => exact absurd (.inl hp) hfound
    | some p =>
      show ∃ q tested ns, Pointed q tested ns s (s.movePointer e p) ∧ _
      rw [← hp]
      cases he : e.dir with
      | forward => exact s.movePointer_forward he waited hw hn hp hfound
      | reverse => exact s.movePointer_reverse he waited hp hfound

/-- `PointerWork` reads the keys, the delta and the cues apart from their waited flags of the reel it is given. -/
theorem PointerWork.congr {e : FrameEdge} {rate : Rate} {x y : Reel} {waited : Nat → Bool} {pointer : Option Nat}
    {mark : Bool} {q : Nat} {tested : List Nat} {ns : List Notice} (horder : y.order = x.order)
    (hdelta : y.delta = x.delta) (hcue : ∀ slot, (y.cue slot).map Cue.unwaited = (x.cue slot).map Cue.unwaited)
    (h : PointerWork e rate x waited pointer mark q tested ns) : PointerWork e rate y waited pointer mark q tested ns := by
  have hbind {α : Type} (f : Cue → Option α) (hf : ∀ c, f c.unwaited = f c) (slot : Nat) :
      (y.cue slot).bind f = (x.cue slot).bind f := by
    have hmap (z : Reel) : (z.cue slot).bind f = ((z.cue slot).map Cue.unwaited).bind f := by
      rw [Option.bind_map]
      exact congrArg _ (funext fun c => (hf c).symm)
    rw [hmap, hmap x, hcue]
  have hkey : y.key = x.key := by
    funext slot
    have hof (z : Reel) (hz : z.delta = x.delta) : z.key slot = ((z.cue slot).bind fun c => some (x.keyOf c)).getD 0 := by
      have : z.keyOf = x.keyOf := by funext c; simp only [Reel.keyOf, hz]
      rw [Reel.key, this]
      cases z.cue slot <;> rfl
    rw [hof y hdelta, hof x rfl, hbind _ fun c => rfl]
  obtain ⟨hre, hmove⟩ := h
  refine ⟨fun hf => ?_, fun hf p hp hle => ?_⟩
  · obtain ⟨h1, h2, h3, h4, h5⟩ := hre hf
    refine ⟨horder ▸ h1, by rw [horder, hkey]; exact h2, by rw [horder, hkey]; exact h3, horder ▸ h4, ?_⟩
    rw [h5]
    refine List.filterMap_congr fun slot _ => ?_
    simp only [hdelta]
    exact (hbind _ (fun c => rfl) slot).symm
  · obtain ⟨hfor, hrev⟩ := hmove hf p hp (horder ▸ hle)
    refine ⟨fun hd => ?_, fun hd => ?_⟩
    · obtain ⟨h1, h2, h3, h4, h5, h6⟩ := hfor hd
      refine ⟨h1, horder ▸ h2, horder ▸ h3, by rw [hkey]; exact h4, by rw [horder, hkey]; exact h5, ?_⟩
      rw [h6]
      refine List.filterMap_congr fun slot _ => ?_
      exact (hbind _ (fun c => rfl) slot).symm
    · obtain ⟨h1, h2, h3, h4, h5⟩ := hrev hd
      exact ⟨h1, by rw [horder, hkey]; exact h2, by rw [horder, hkey]; exact h3, h4, h5⟩

end Sys2Proof.Machine
end

section
/-! The aborts of passes (R102 to R106): what ends every pass, and what ends one. -/

namespace Sys2Proof.Machine

/-! ## The abort of one pass, as work on it -/

/-- A take as the abort of the pass of `c` leaves it: OPEN and named by the context, it is ABORTED with the lines held
(R104). -/
def Ctx.abortedTake (c : Ctx) (x : Take) : Take :=
  if c.take = some x.number ∧ x.result = .opened then { x with result := .aborted, lines := c.held } else x

/-- What an abort does to the pass of context `k` (R104, R105). -/
def Ctx.abortWork (cause : AbortCause) (k : Fin 4) (c : Ctx) (cue : Cue) : PassWork where
  stays := none
  cue := { cue.afterPass (decide (c.phase = .tail)) with takes := cue.takes.map c.abortedTake }
  notices := [.passEnd k c.reel c.loop (.aborted cause) c.phase
    (c.take.bind fun n => (cue.takes.find? fun x => decide (x.number = n)).map c.abortedTake)]
  events := [.release k c.loop, .freeHandover k]

theorem Ctx.abortedTake_number (c : Ctx) (x : Take) : (c.abortedTake x).number = x.number := by
  unfold Ctx.abortedTake
  split <;> rfl

/-- The take of a context is found among the aborted takes as the aborted one. -/
theorem Ctx.find?_abortedTake (c : Ctx) (takes : List Take) (n : Nat) :
    (takes.map c.abortedTake).find? (fun x => decide (x.number = n))
      = (takes.find? fun x => decide (x.number = n)).map c.abortedTake := by
  rw [List.find?_map]
  congr 2
  funext x
  simp [c.abortedTake_number x]

/-- The change of a cue by the function that changes nothing. -/
theorem Reel.modCue_self (slot : Nat) (f : Cue → Cue) (hf : ∀ c, f c = c) (r : Reel) : r.modCue slot f = r := by
  unfold Reel.modCue
  have : (fun p : Nat × Cue => if p.1 = slot then (p.1, f p.2) else p) = id := by
    funext p
    simp [hf]
  rw [this, List.map_id]

/-! ## Work on a pass, put together -/

/-- Work on a pass after events that were handed on. -/
theorem Worked.of_post {k : Fin 4} {r : Fin 8} {slot : Nat} {ctx' : Option Ctx} {cue cue' : Cue} {ns : List Notice}
    {es es' : List Instr} {s t : State} (h : Worked k r slot ctx' cue cue' ns es (s.post es') t) :
    Worked k r slot ctx' cue cue' ns (es' ++ es) s t where
  outer := h.outer
  bare := h.bare
  raised := by rw [h.raised, State.post_raised, List.append_assoc]
  pointer := h.pointer
  refind := h.refind
  ctx := h.ctx
  cueWas := h.cueWas
  change := h.change
  told := by
    refine Told.trans (ms := []) ?_ h.told
    exact Told.of_lnk rfl rfl rfl

/-- Events handed on after work on a pass. -/
theorem Worked.post {k : Fin 4} {r : Fin 8} {slot : Nat} {ctx' : Option Ctx} {cue cue' : Cue} {ns : List Notice}
    {es : List Instr} {s t : State} (h : Worked k r slot ctx' cue cue' ns es s t) (es' : List Instr) :
    Worked k r slot ctx' cue cue' ns (es ++ es') s (t.post es') where
  outer := h.outer
  bare := h.bare
  raised := by rw [State.post_raised, h.raised, List.append_assoc]
  pointer := h.pointer
  refind := h.refind
  ctx := h.ctx
  cueWas := h.cueWas
  change := h.change
  told := by
    have hpost : Told [] t (t.post es') := Told.of_lnk rfl rfl rfl
    simpa using h.told.trans hpost

/-- Work on a cue and nothing else. -/
theorem Worked.modCue {k : Fin 4} {r : Fin 8} {slot : Nat} {c : Ctx} {cue : Cue} {s : State} (hk : s.ctx k = some c)
    (hc : s.cue r slot = some cue) (g : Cue → Cue)
    (hg : ∀ x, (g x).vals = x.vals ∧ (g x).conformPending = x.conformPending ∧ (g x).loop = x.loop) :
    Worked k r slot (some c) cue (g cue) [] [] s (s.modCue r slot g) where
  outer := rfl
  bare := rfl
  raised := (List.append_nil _).symm
  pointer := rfl
  refind := rfl
  ctx j := by
    show s.ctx j = _
    split
    · next h => rw [h, hk]
    · rfl
  cueWas := hc
  change := ⟨g, hg, rfl, fun r' => State.reel_modReel _ _ _ _⟩
  told := Told.of_lnk rfl rfl rfl

/-- No work at all. -/
theorem Worked.none {k : Fin 4} {r : Fin 8} {slot : Nat} {c : Ctx} {cue : Cue} {s : State} (hk : s.ctx k = some c)
    (hc : s.cue r slot = some cue) : Worked k r slot (some c) cue cue [] [] s s where
  outer := rfl
  bare := rfl
  raised := (List.append_nil _).symm
  pointer := rfl
  refind := rfl
  ctx j := by
    split
    · next h => rw [h, hk]
    · rfl
  cueWas := hc
  change := ⟨fun x => x, fun x => ⟨rfl, rfl, rfl⟩, rfl, fun r' => by
    rw [Reel.modCue_self _ _ fun x => rfl]
    split
    · next h => rw [h]
    · rfl⟩
  told := Told.refl s

/-- The take that a context names is changed in the list of its cue. -/
theorem Worked.changeTake {k : Fin 4} {c : Ctx} {cue : Cue} {s : State} (hk : s.ctx k = some c)
    (hc : s.cue c.reel c.slot = some cue) (f g : Take → Take) (hg : ∀ x, g x = if c.take = some x.number then f x else x) :
    Worked k c.reel c.slot (some c) cue { cue with takes := cue.takes.map g } [] [] s
      (c.take.elim s fun number => s.modCue c.reel c.slot (Cue.modTake number f)) := by
  cases htake : c.take with
  | none =>
    have hid : cue.takes.map g = cue.takes := by
      have : g = id := funext fun x => by simp [hg, htake]
      rw [this, List.map_id]
    rw [hid]
    exact Worked.none hk hc
  | some number =>
    have hmod : ({ cue with takes := cue.takes.map g } : Cue) = Cue.modTake number f cue := by
      unfold Cue.modTake
      congr 1
      refine List.map_congr_left fun x _ => ?_
      simp only [hg, htake, Option.some.injEq, eq_comm]
    rw [hmod]
    exact Worked.modCue hk hc _ fun x => ⟨rfl, rfl, rfl⟩

/-- The release, and the take ABORTED. -/
theorem State.abortTake_worked {k : Fin 4} {c : Ctx} {cue : Cue} {s : State} (hk : s.ctx k = some c)
    (hc : s.cue c.reel c.slot = some cue) :
    Worked k c.reel c.slot (some c) cue { cue with takes := cue.takes.map c.abortedTake } [] [.release k c.loop] s
      ((s.post [.release k c.loop]).abortTake c) := by
  have habort : (s.post [.release k c.loop]).abortTake c = c.take.elim (s.post [.release k c.loop]) fun number =>
      (s.post [.release k c.loop]).modCue c.reel c.slot (Cue.modTake number (Take.abort c.held)) := by
    unfold State.abortTake
    cases c.take <;> rfl
  rw [habort]
  refine (Worked.changeTake (s := s.post [.release k c.loop]) hk hc _ _ fun x => ?_).of_post
  unfold Ctx.abortedTake Take.abort
  by_cases hn : c.take = some x.number <;> simp [hn]

theorem Cue.afterPass_takes (b : Bool) (cue : Cue) (takes : List Take) :
    ({ cue with takes := takes } : Cue).afterPass b = { cue.afterPass b with takes := takes } := rfl

/-- The abort of a pass (R104, R105). -/
theorem State.abortCtx_step (cause : AbortCause) {k : Fin 4} {c : Ctx} {cue : Cue} {s : State} (hk : s.ctx k = some c)
    (hr : c.reel = s.cst.playReel) (hc : s.cue c.reel c.slot = some cue) :
    PassStep k c cue (c.abortWork cause k cue) s (s.abortCtx cause k) := by
  have hend := ((State.abortTake_worked hk hc).ended hr (decide (c.phase = .tail)) (.aborted cause)).freed
  simp only [Ctx.find?_abortedTake, Cue.afterPass_takes] at hend
  simp only [State.abortCtx, hk]
  exact hend

/-- Several passes aborted in index order (R104). -/
theorem State.abortAll_passed (cause : AbortCause) (ks : List (Fin 4)) (hks : ks.Nodup) {s : State}
    (hs : s.cst.lawful = true) (hmet : s.PassesMet) :
    Passed (fun k c cue => c.abortWork cause k cue) ks s (s.abortAll cause ks) := by
  have := Passed.foldl (W := fun k c cue => c.abortWork cause k cue) (f := fun s k => s.abortCtx cause k)
    (State.reel_lawful hs _) hmet (fun u k hk => by simp [State.abortCtx, hk])
    (fun u k c cue _ hk hr hc => State.abortCtx_step cause hk hr hc) ks [] s (Passed.nil _ s) (by simpa using hks)
  simpa [State.abortAll] using this

/-! ## What the aborts raise and hand on -/

theorem flatMap_filterMap_elim {α β γ : Type} (f : α → Option β) (g : β → List γ) (l : List α) :
    (l.filterMap f).flatMap g = l.flatMap fun a => (f a).elim [] g := by
  induction l with
  | nil => rfl
  | cons a l ih => cases h : f a <;> simp [h, ih]

theorem flatMap_toList {α β : Type} (f : α → Option β) (l : List α) : (l.flatMap fun a => (f a).toList) = l.filterMap f := by
  induction l with
  | nil => rfl
  | cons a l ih => cases h : f a <;> simp [h, ih]

/-- The PASS_END that the abort of context `k` raises (R104). -/
def State.endOf (cause : AbortCause) (s : State) (k : Fin 4) : Option Notice :=
  (s.ctx k).bind fun c => (s.cue c.reel c.slot).map fun cue =>
    .passEnd k c.reel c.loop (.aborted cause) c.phase
      (c.take.bind fun n => (cue.takes.find? fun x => decide (x.number = n)).map c.abortedTake)

/-- What the abort of context `k` hands on (R104). -/
def State.freedBy (s : State) (k : Fin 4) : List Instr :=
  (s.ctx k).elim [] fun c => [Instr.release k c.loop, Instr.freeHandover k]

theorem State.abortWorks_notices (cause : AbortCause) (s : State) (ks : List (Fin 4)) :
    (ks.filterMap (s.workOf fun k c cue => c.abortWork cause k cue)).flatMap (fun w => w.notices)
      = ks.filterMap (s.endOf cause) := by
  rw [flatMap_filterMap_elim, ← flatMap_toList]
  refine List.flatMap_congr fun k _ => ?_
  unfold State.workOf State.endOf
  cases s.ctx k with
  | none => rfl
  | some c =>
    simp only [Option.bind_some]
    cases s.cue c.reel c.slot <;> rfl

theorem State.abortWorks_events (cause : AbortCause) {s : State} (hmet : s.PassesMet) (ks : List (Fin 4)) :
    (ks.filterMap (s.workOf fun k c cue => c.abortWork cause k cue)).flatMap (fun w => w.events) = ks.flatMap s.freedBy := by
  rw [flatMap_filterMap_elim]
  refine List.flatMap_congr fun k _ => ?_
  unfold State.workOf State.freedBy
  cases hk : s.ctx k with
  | none => rfl
  | some c =>
    obtain ⟨cue, hc, -⟩ := hmet.cue k c hk
    rw [← hmet.reel k c hk] at hc
    simp only [Option.bind_some, hc]
    rfl

theorem State.abortWorks_stays (cause : AbortCause) (s : State) (k : Fin 4) :
    ((s.workOf (fun k c cue => c.abortWork cause k cue) k).bind fun w => w.stays) = none := by
  unfold State.workOf
  cases s.ctx k with
  | none => rfl
  | some c =>
    simp only [Option.bind_some]
    cases s.cue c.reel c.slot <;> rfl

/-! ## All passes aborted -/

theorem mem_allCtx (k : Fin 4) : k ∈ allCtx := by revert k; decide

theorem allCtx_nodup : allCtx.Nodup := by decide

/-- Whether any pass is in flight. -/
def State.anyActive (s : State) : Bool := allCtx.any fun k => (s.ctx k).isSome

/-- The play reel applied where every pass of `s` ends: the pending one, where a pass was in flight (R8). -/
def State.switchAll (s : State) : Option (Fin 8) := if s.anyActive then s.cst.pendingPlay else none

/-- Every pass of `s` was aborted, the cues compared apart from their waited flags, and nothing was done but what an edge does
after that. -/
structure AllAborted (cause : AbortCause) (s t : State) : Prop where
  outer : t.outer = s.outer
  ctx : ∀ k : Fin 4, t.ctx k = none
  editReel : t.cst.editReel = s.cst.editReel
  playReel : t.cst.playReel = s.switchAll.getD s.cst.playReel
  pendingPlay : t.cst.pendingPlay = if s.anyActive then none else s.cst.pendingPlay
  edited : ∃ done, Reel.Edited done s.playReel (t.reel s.cst.playReel)
  reels : ∀ r, r ≠ s.cst.playReel → t.reel r = s.reel r
  served : ∀ (k : Fin 4) (c : Ctx) (cue : Cue), s.ctx k = some c → s.cue c.reel c.slot = some cue →
    (t.cue c.reel c.slot).map Cue.unwaited = some (c.abortWork cause k cue).cue.unwaited
  unserved : ∀ slot, (∀ (k : Fin 4) (c : Ctx), s.ctx k = some c → c.slot ≠ slot) →
    (t.cue s.cst.playReel slot).map Cue.unwaited = (s.cue s.cst.playReel slot).map Cue.unwaited
  noticed : s.lnk.roomFor 5 →
    (s.lnk.noticesHeld ++ allCtx.filterMap (s.endOf cause) ++ s.switchAll.toList.map .reelSwitched) <+: t.lnk.noticesHeld

/-- Whether an event that turned `s` into `t` gave a cue of the play reel another in-point. -/
def State.movedTo (s t : State) : Bool := decide ((t.reel s.cst.playReel).inPoints ≠ s.playReel.inPoints)

/-- The aborts of every pass alone, with the cues as they leave them, waited flags included. -/
structure JustAborted (cause : AbortCause) (s t : State) : Prop extends AllAborted cause s t where
  pointer : t.psc.pointer = s.psc.pointer
  cues : ∀ slot, (∀ (k : Fin 4) (c : Ctx), s.ctx k = some c → c.slot ≠ slot) →
    t.cue s.cst.playReel slot = s.cue s.cst.playReel slot
  cueAt : ∀ (k : Fin 4) (c : Ctx) (cue : Cue), s.ctx k = some c → s.cue c.reel c.slot = some cue →
    t.cue c.reel c.slot = some (c.abortWork cause k cue).cue
  raised : t.raised = s.raised ++ allCtx.flatMap s.freedBy
  told : Told (allCtx.filterMap (s.endOf cause) ++ s.switchAll.toList.map .reelSwitched) s t

theorem State.ends_length (cause : AbortCause) (s : State) : (allCtx.filterMap (s.endOf cause)).length ≤ 4 :=
  List.length_filterMap_le _ _

theorem State.switch_length (s : Option (Fin 8)) : (s.toList.map Notice.reelSwitched).length ≤ 1 := by
  cases s <;> simp

/-- The abort of every pass (R103, R104). -/
theorem State.abortAll_all (cause : AbortCause) {s : State} (hs : s.cst.lawful = true) (hmet : s.PassesMet) :
    JustAborted cause s (s.abortAll cause allCtx)
    ∧ (s.abortAll cause allCtx).psc.refind
      = (s.psc.refind || s.movedTo (s.abortAll cause allCtx) || s.switchAll.isSome) := by
  have h := State.abortAll_passed cause allCtx allCtx_nodup hs hmet
  have hctx (k : Fin 4) : (s.abortAll cause allCtx).ctx k = none := by
    rw [h.ctx, if_pos (mem_allCtx k), State.abortWorks_stays]
  have hsw : State.switchAfter allCtx s (s.abortAll cause allCtx) = s.switchAll := by
    rw [State.switchAfter, (State.allFree_iff _).mpr hctx, Bool.and_true]
    rfl
  obtain ⟨done, -, hedited⟩ := h.edited
  have hcst := h.cst
  have htold := h.told
  rw [State.abortWorks_notices, hsw] at htold
  rw [hsw] at hcst
  have hcueAt : ∀ (k : Fin 4) (c : Ctx) (cue : Cue), s.ctx k = some c → s.cue c.reel c.slot = some cue →
      (s.abortAll cause allCtx).cue c.reel c.slot = some (c.abortWork cause k cue).cue := by
    intro k c cue hk hc
    have hr := hmet.reel k c hk
    rw [hr] at hc ⊢
    exact h.cueAt k (mem_allCtx k) c cue hk hc
  have hcues : ∀ slot, (∀ (k : Fin 4) (c : Ctx), s.ctx k = some c → c.slot ≠ slot) →
      (s.abortAll cause allCtx).cue s.cst.playReel slot = s.cue s.cst.playReel slot :=
    fun slot hall => h.cues slot fun k _ => hall k
  refine ⟨?_, by rw [h.refind, hsw]; rfl⟩
  exact
    { outer := h.outer, ctx := hctx
      editReel := by rw [hcst], playReel := by rw [hcst]
      pendingPlay := by
        rw [hcst]
        unfold State.switchAll
        cases s.anyActive <;> cases s.cst.pendingPlay <;> simp
      edited := ⟨done, hedited⟩, reels := h.reels
      served := fun k c cue hk hc => by rw [hcueAt k c cue hk hc]; rfl
      unserved := fun slot hall => by rw [hcues slot hall]
      noticed := fun room => by
        have hlen := s.ends_length cause
        have hlen' := State.switch_length s.switchAll
        rw [htold.held_append (by simp only [Link.roomFor, List.length_append] at room ⊢; omega), List.append_assoc]
      pointer := h.pointer, cues := hcues, cueAt := hcueAt
      raised := by rw [h.raised, State.abortWorks_events cause hmet]
      told := htold }

end Sys2Proof.Machine
end

section
/-! An abort edge (R91, R104, log entry 14), and the obligation on the aborts. -/

namespace Sys2Proof.Machine

/-! ## What changes nothing that the aborts left -/

theorem AllAborted.of_eq {cause : AbortCause} {s t u : State} (h : AllAborted cause s t) (houter : u.outer = t.outer)
    (hctxs : u.psc.ctxs = t.psc.ctxs) (hcst : u.cst = t.cst) (hlnk : u.lnk.noticesHeld = t.lnk.noticesHeld) :
    AllAborted cause s u := by
  have hctx (k : Fin 4) : u.ctx k = t.ctx k := by rw [State.ctx, State.ctx, hctxs]
  have hreel (r : Fin 8) : u.reel r = t.reel r := by rw [State.reel, State.reel, hcst]
  have hcue (r : Fin 8) (slot : Nat) : u.cue r slot = t.cue r slot := by rw [State.cue, State.cue, hreel]
  exact
    { outer := houter.trans h.outer, ctx := fun k => (hctx k).trans (h.ctx k), editReel := by rw [hcst, h.editReel]
      playReel := by rw [hcst, h.playReel], pendingPlay := by rw [hcst, h.pendingPlay]
      edited := by simp only [hreel]; exact h.edited
      reels := fun r hr => (hreel r).trans (h.reels r hr)
      served := fun k c cue hk hc => by rw [hcue]; exact h.served k c cue hk hc
      unserved := fun slot hall => by rw [hcue]; exact h.unserved slot hall
      noticed := by rw [hlnk]; exact h.noticed }

/-- The cues that step 2 of an edge tests differ in the waited flag alone. -/
theorem Pointed.unwaited {q : Nat} {tested : List Nat} {ns : List Notice} {s t : State} (h : Pointed q tested ns s t)
    (slot : Nat) : (t.cue s.cst.playReel slot).map Cue.unwaited = (s.cue s.cst.playReel slot).map Cue.unwaited := by
  rw [h.cues]
  split
  · rw [Option.map_map]; rfl
  · rfl

theorem Pointed.inPoints {q : Nat} {tested : List Nat} {ns : List Notice} {s t : State} (h : Pointed q tested ns s t)
    (hs : (s.playReel.cues.map Prod.fst).Nodup) : (t.reel s.cst.playReel).inPoints = s.playReel.inPoints := by
  have hlabels := (h.edited [] _ (Reel.Edited.refl _)).labels
  refine Reel.map_eq_of_lookup (fun c => c.vals.inPt) (Reel.keys_of_labels hlabels) hs fun slot => ?_
  have := congrArg (Option.map fun c => c.vals.inPt) (h.unwaited slot)
  rwa [Option.map_map, Option.map_map] at this

/-- Step 2 of an abort edge leaves what the aborts left. -/
theorem AllAborted.pointed {cause : AbortCause} {s u v : State} (h : AllAborted cause s u)
    (hplay : u.cst.playReel = s.cst.playReel) {q : Nat} {tested : List Nat} {ns : List Notice}
    (hp : Pointed q tested ns u v) : AllAborted cause s v := by
  obtain ⟨done, hedited⟩ := h.edited
  have hun := hp.unwaited
  have hed := hp.edited
  have hreels := hp.reels
  rw [hplay] at hun hreels
  have hcst := CueStore.eq_of_bare hp.bare
  refine
    { outer := hp.outer.trans h.outer, ctx := fun k => ?_, editReel := by rw [hcst, h.editReel]
      playReel := by rw [hcst, h.playReel], pendingPlay := by rw [hcst, h.pendingPlay]
      edited := ⟨done, ?_⟩
      reels := fun r hr => (hreels r hr).trans (h.reels r hr)
      served := fun k c cue hk hc => ?_
      unserved := fun slot hall => (hun slot).trans (h.unserved slot hall)
      noticed := fun room => (h.noticed room).trans hp.told.held }
  · rw [State.ctx, hp.ctxs]; exact h.ctx k
  · have := hed done s.playReel
    rw [show u.playReel = u.reel s.cst.playReel by rw [State.playReel, hplay], hplay] at this
    exact this hedited
  · by_cases hr : c.reel = s.cst.playReel
    · have := h.served k c cue hk hc
      rw [hr] at this ⊢
      rw [hun, this]
    · rw [State.cue, hreels _ hr]
      exact h.served k c cue hk hc

/-! ## Step 1 of an abort edge -/

/-- The aborts of an abort edge, with the mark as the edge found it (log entry 14). -/
theorem State.edgeFirst_aborts {e : FrameEdge} (he : runningEdge e = false) {s : State} (hs : s.cst.lawful = true)
    (hmet : s.PassesMet) : JustAborted (edgeCause e) s (s.edgeFirst e).1
      ∧ (s.edgeFirst e).2 = (s.movedTo (s.edgeFirst e).1 || s.switchAll.isSome) := by
  have hmet' : State.PassesMet { s with psc := { s.psc with refind := false } } := ⟨hmet.reel, hmet.cue, hmet.distinct⟩
  obtain ⟨h, hmark⟩ := State.abortAll_all (edgeCause e) (s := { s with psc := { s.psc with refind := false } }) hs hmet'
  have haborts : State.edgeAborts e { s with psc := { s.psc with refind := false } }
      = State.abortAll (edgeCause e) allCtx { s with psc := { s.psc with refind := false } } := by
    simp [State.edgeAborts, he]
  rw [← haborts] at h hmark
  refine ⟨?_, hmark⟩
  exact
    { outer := h.outer, ctx := h.ctx, editReel := h.editReel, playReel := h.playReel, pendingPlay := h.pendingPlay
      edited := h.edited, reels := h.reels, served := h.served, unserved := h.unserved, noticed := h.noticed
      pointer := h.pointer, cues := h.cues, cueAt := h.cueAt, raised := h.raised
      told := by
        have : Told [] (State.edgeAborts e { s with psc := { s.psc with refind := false } }) (s.edgeFirst e).1 :=
          Told.of_lnk rfl rfl rfl
        have hs1 : Told [] s { s with psc := { s.psc with refind := false } } := Told.of_lnk rfl rfl rfl
        have := (hs1.trans h.told).trans this
        rw [List.nil_append, List.append_nil] at this
        exact this }

theorem AllAborted.switched {cause : AbortCause} {s t : State} (h : AllAborted cause s t) :
    switched s t = s.switchAll.isSome := by
  unfold Machine.switched State.switchAll
  rw [h.pendingPlay]
  cases s.anyActive <;> cases s.cst.pendingPlay <;> rfl

/-- The work of an abort edge: where it applied a pending play reel the pointer is unset, otherwise step 2 follows. -/
theorem State.edgeWork_aborts {e : FrameEdge} (he : runningEdge e = false) {s : State}
    (h : AllAborted (edgeCause e) s (s.edgeFirst e).1) : s.edgeWork e =
      if s.switchAll.isSome then ((s.edgeFirst e).1.markWhere (s.edgeFirst e).2).setPointer none
      else ((s.edgeFirst e).1.pointerWork e).markWhere (s.edgeFirst e).2 := by
  unfold State.edgeWork
  dsimp only
  rw [h.switched]
  simp [he]

/-- With every context FREE step 1 changes nothing. -/
theorem State.edgeFirst_free (e : FrameEdge) {s : State} (h : ∀ k : Fin 4, s.ctx k = none) : s.edgeFirst e = (s, false) := by
  have habort (cause : AbortCause) (u : State) (hu : ∀ k : Fin 4, u.ctx k = none) : ∀ ks : List (Fin 4),
      u.abortAll cause ks = u := by
    intro ks
    induction ks with
    | nil => rfl
    | cons k ks ih =>
      rw [State.abortAll, List.foldl_cons, show u.abortCtx cause k = u by simp [State.abortCtx, hu k]]
      exact ih
  have hfirst : State.edgeAborts e { s with psc := { s.psc with refind := false } }
      = { s with psc := { s.psc with refind := false } } := by
    unfold State.edgeAborts
    split
    · rfl
    · exact habort (edgeCause e) { s with psc := { s.psc with refind := false } } h allCtx
  simp only [State.edgeFirst, hfirst]

/-- The edge as a whole: every pass is aborted. -/
theorem State.edgeWork_allAborted {e : FrameEdge} (he : runningEdge e = false) {s : State} (hs : s.cst.lawful = true)
    (hmet : s.PassesMet) : AllAborted (edgeCause e) s (s.edgeWork e)
      ∧ (s.edgeWork e).psc.refind = (s.movedTo (s.edgeWork e) || s.switchAll.isSome)
      ∧ (s.switchAll.isSome = true → (s.edgeWork e).psc.pointer = none)
      ∧ (s.edgeWork e).raised = s.raised ++ allCtx.flatMap s.freedBy := by
  obtain ⟨h, hmark⟩ := State.edgeFirst_aborts he hs hmet
  rw [State.edgeWork_aborts he h.toAllAborted]
  generalize hu : (s.edgeFirst e).1 = u at h hmark
  generalize (s.edgeFirst e).2 = mark at hmark
  cases hsw : s.switchAll with
  | some r =>
    rw [hsw] at hmark
    simp only [Option.isSome_some, if_true, Bool.or_true] at hmark ⊢
    refine ⟨h.toAllAborted.of_eq rfl rfl rfl rfl, ?_, fun _ => rfl, h.raised⟩
    show (u.psc.refind || mark) = true
    rw [hmark, Bool.or_true]
  | none =>
    rw [hsw] at hmark
    simp only [Option.isSome_none, Bool.or_false, Bool.false_eq_true, if_false] at hmark ⊢
    have hplay : u.cst.playReel = s.cst.playReel := by rw [h.playReel, hsw]; rfl
    obtain ⟨done, hedited⟩ := h.edited
    have hperm := hedited.perm
    have hkeys : ((u.reel s.cst.playReel).cues.map Prod.fst).Nodup := by
      rw [Reel.keys_of_labels hedited.labels]
      exact Reel.keys_nodup (State.reel_lawful hs _)
    obtain ⟨q, tested, ns, hp, -⟩ := u.pointerWork_pointed e (fun slot => (u.cue u.cst.playReel slot).any fun c => c.waited)
      (by
        rw [State.playReel, hplay]
        exact hperm.nodup_iff.mpr (Reel.order_nodup (State.reel_lawful hs _)))
      fun slot c hc => by simp [hc]
    refine ⟨(h.toAllAborted.pointed hplay hp).of_eq rfl rfl rfl rfl, ?_, fun hf => hf.elim, hp.raised.trans h.raised⟩
    have hin := hp.inPoints (by rw [State.playReel, hplay]; exact hkeys)
    rw [State.playReel, hplay] at hin
    show ((u.pointerWork e).psc.refind || mark) = s.movedTo (u.pointerWork e)
    rw [hp.refind, hmark, Bool.false_or, State.movedTo, State.movedTo, hin]

/-! ## PASS_ABORT -/

theorem AllAborted.of_taken {cause : AbortCause} {i : Instr} {s t : State} (h : AllAborted cause (s.taken i) t) :
    AllAborted cause s t :=
  ⟨h.outer, h.ctx, h.editReel, h.playReel, h.pendingPlay, h.edited, h.reels, h.served, h.unserved, h.noticed⟩

theorem State.answers_outer (i : Instr) (r : Result) (d : AnswerData) (s u : State) :
    (State.answers i r d s u).outer = u.outer := State.outer_of_apart (State.answers_apart i r d s u)

/-- The answer to the command that aborts every pass changes nothing that the aborts left. -/
theorem JustAborted.answers {cause : AbortCause} {s u : State} (h : JustAborted cause s u) (i : Instr) (r : Result)
    (d : AnswerData) : AllAborted cause s (State.answers i r d s u) where
  outer := (State.answers_outer i r d s u).trans h.outer
  ctx k := by rw [State.answers_ctx]; exact h.ctx k
  editReel := by rw [State.answers_cst]; exact h.editReel
  playReel := by rw [State.answers_cst]; exact h.playReel
  pendingPlay := by rw [State.answers_cst]; exact h.pendingPlay
  edited := by rw [State.answers_reel]; exact h.edited
  reels x hx := by rw [State.answers_reel]; exact h.reels x hx
  served k c cue hk hc := by rw [State.answers_cue]; exact h.served k c cue hk hc
  unserved slot hall := by rw [State.answers_cue]; exact h.unserved slot hall
  noticed room := by
    have hlen := s.ends_length cause
    have hlen' := State.switch_length s.switchAll
    have hn := h.told.noticed (.inl (by simp only [Link.roomFor, List.length_append] at room ⊢; omega))
    rw [(State.answers_answered (i := i) (r := r) (d := d) hn).2.1, List.append_assoc]

theorem contextsOf_all : contextsOf 0xFF = some allCtx := rfl

theorem contextsOf_one {code : Byte} {k : Fin 4} (h : code.toNat = k.val) : contextsOf code = some [k] := by
  have hk := k.isLt
  have hne : code ≠ 0xFF := fun e => by rw [e] at h; simp at h; omega
  unfold contextsOf
  rw [if_neg hne, dif_pos (by omega)]
  simp only [Option.some.injEq, List.cons.injEq, and_true]
  exact Fin.ext h

theorem contextsOf_none {code : Byte} (h : 4 ≤ code.toNat) (hne : code ≠ 0xFF) : contextsOf code = none := by
  unfold contextsOf
  rw [if_neg hne, dif_neg (by omega)]

theorem State.activeAmong_all (s : State) : s.activeAmong allCtx = s.activeSet := by
  unfold State.activeAmong State.activeSet
  congr 1
  funext k
  simp [mem_allCtx k]

theorem State.activeAmong_one (s : State) (k : Fin 4) :
    s.activeAmong [k] = if (s.ctx k).isSome then 1#8 <<< k.val else 0#8 := by
  have hset : ∀ (k : Fin 4) (b : Bool), ctxSetOf (fun j => decide (j = k) && b) = if b then 1#8 <<< k.val else 0#8 := by
    decide
  rw [← hset k]
  unfold State.activeAmong
  congr 1
  funext j
  by_cases h : j = k <;> simp [h]

/-- What PASS_ABORT of the contexts it names comes to (R106). -/
theorem State.passAbort_owner {code : Byte} {ks : List (Fin 4)} (h : contextsOf code = some ks) (s : State) :
    exec (.passAbort code) s = .next (State.answers (.passAbort code) .done (.aborted (s.activeAmong ks)) s
      (s.abortAll .commanded ks)) := by
  refine congrArg Host.Outcome.next (State.owner_eq ?_)
  rw [h]

end Sys2Proof.Machine

open Sys2Proof Sys2Proof.Machine in
/-- Settles O40: `State.abortAll_passed` gives what the aborts of any list of contexts come to, `State.edgeWork_allAborted` what
an abort edge adds to them. -/
theorem abortsEndEveryPass : Obligations.AbortsEndEveryPass := by
  intro e dir code s hs hlaw freed taken settled endOf ends unserved active switch moved ended kept
  have hmet := State.passesMet (.inl hlaw)
  have hended : ∀ cause t, AllAborted cause s t → ended cause t := by
    intro cause t h
    obtain ⟨done, hedited⟩ := h.edited
    exact ⟨State.apart_of_outer h.outer, h.ctx, h.editReel, h.playReel, h.pendingPlay, hedited.settled, hedited.state,
      h.reels, h.served, h.unserved, h.noticed⟩
  refine ⟨?stopped, ?all, fun he => ?edge, fun state hstate => ?other, ?one⟩
  case stopped =>
    obtain ⟨h, hmark⟩ := State.abortAll_all .stopped (s := s.taken (.pscStateEvent .stopped dir)) hs
      ⟨hmet.reel, hmet.cue, hmet.distinct⟩
    exact ⟨_, rfl, hended _ _ h.toAllAborted.of_taken, ⟨h.pointer, hmark, h.cues, h.cueAt⟩, h.raised⟩
  case all =>
    obtain ⟨h, hmark⟩ := State.abortAll_all .commanded hs hmet
    refine ⟨_, State.passAbort_owner contextsOf_all s, hended _ _ (h.answers _ _ _), ?_, ?_, ?_⟩
    · simp only [kept, moved, State.answers_psc, State.answers_reel, State.answers_cue]
      exact ⟨h.pointer, hmark, h.cues, h.cueAt⟩
    · rw [State.answers_raised]; exact h.raised
    · rw [State.answers_lastAnswer, State.activeAmong_all]; rfl
  case edge =>
    obtain ⟨h, hmark, hpointer, hraised⟩ := State.edgeWork_allAborted he (s := s.taken (.pscFrameEdge e)) hs
      ⟨hmet.reel, hmet.cue, hmet.distinct⟩
    refine ⟨_, rfl, hended _ _ (h.of_taken.of_eq rfl rfl rfl rfl), hmark, hpointer, ?_⟩
    have hlanes : ((s.taken (.pscFrameEdge e)).edgeWork e).laneReport e = { n := e.n, state := e.state, lanes := [] } := by
      simp only [State.laneReport, h.ctx]
      rfl
    show _ ++ _ = _
    rw [hraised, hlanes]
    rfl
  case other =>
    cases state with
    | stopped => exact absurd rfl hstate
    | unknown | locked | freewheel => rfl
  case one =>
    by_cases hlt : code.toNat < 4
    · have hcode : code.toNat = (⟨code.toNat, hlt⟩ : Fin 4).val := rfl
      refine ⟨_, State.passAbort_owner (contextsOf_one hcode) s, fun h => absurd hlt (by omega), fun k hk => ?_⟩
      obtain rfl : k = ⟨code.toNat, hlt⟩ := Fin.ext hk.symm
      generalize (⟨code.toNat, hlt⟩ : Fin 4) = k at *
      have h := State.abortAll_passed .commanded [k] (List.nodup_singleton k) hs hmet
      generalize s.abortAll .commanded [k] = u at h
      intro switch answer
      have hctx (j : Fin 4) : u.ctx j = if j = k then none else s.ctx j := by
        rw [h.ctx, State.abortWorks_stays]
        simp
      have hfree : u.allFree = allCtx.all fun j => decide (j = k) || (s.ctx j).isNone := by
        refine congrArg (List.all allCtx) (funext fun j => ?_)
        rw [hctx]
        by_cases hj : j = k <;> simp [hj]
      have hsw : State.switchAfter [k] s u = switch := by
        simp only [State.switchAfter, hfree, List.any_cons, List.any_nil, Bool.or_false]
        rfl
      have hcst := h.cst
      have htold := h.told
      obtain ⟨done, -, hedited⟩ := h.edited
      rw [hsw] at hcst htold
      rw [State.abortWorks_notices, ← flatMap_toList, List.flatMap_singleton] at htold
      simp only [moved, State.answers_psc, State.answers_reel, State.answers_cue, State.answers_cst, State.answers_ctx,
        State.activeAmong_one]
      refine ⟨?_, by rw [hctx, if_pos rfl], fun j hj => by rw [hctx, if_neg hj], h.pointer, by rw [hcst], by rw [hcst],
        by rw [hcst], by rw [h.refind, hsw], hedited.settled, hedited.state, h.reels, fun c cue hk hc => ?_,
        fun slot hall => h.cues slot fun j hj => ?_, ?_, fun room => ?_⟩
      · rw [State.answers_apart, State.apart_of_outer h.outer, h.raised, State.abortWorks_events _ hmet,
          List.flatMap_singleton]
        rfl
      · have hr := hmet.reel k c hk
        rw [hr] at hc ⊢
        exact h.cueAt k (List.mem_singleton_self k) c cue hk hc
      · rw [List.mem_singleton.mp hj]; exact hall
      · rw [State.answers_lastAnswer]; rfl
      · have hlen : ((s.endOf .commanded k).toList ++ switch.toList.map Notice.reelSwitched).length ≤ 2 := by
          have := State.switch_length switch
          have : (s.endOf .commanded k).toList.length ≤ 1 := Option.length_toList_le
          rw [List.length_append]
          omega
        exact State.answers_answered (htold.noticed (.inl (by simp only [Link.roomFor] at room ⊢; omega)))
    · by_cases hff : code = 0xFF
      · subst hff
        exact ⟨_, State.passAbort_owner contextsOf_all s, fun _ h => absurd rfl h, fun k hk => by
          have := k.isLt; simp at hk; omega⟩
      · refine ⟨_, rfl, fun _ _ => State.owner_refused ?_, fun k hk => by have := k.isLt; omega⟩
        rw [contextsOf_none (by omega) hff]
end

section
/-! Step 3 of R91: the phase, the staging and take work, and the close of one pass, and of all of them, meet `Ctx.workOn` (R96,
R97, R99 to R102). -/

namespace Sys2Proof.Machine

/-! ## The frames of the close and of the phases -/

theorem closesAt_eq (rate : Rate) (c : Ctx) (n : Nat) : closesAt rate c n = c.closesOn rate n := by
  unfold closesAt Ctx.closesOn closeFrame wraps
  by_cases h : c.close < rate.fDay
  · simp [h, Nat.not_le.mpr h]
  · simp [h, Nat.not_lt.mp h]

theorem phaseAt_eq (rate : Rate) (c : Ctx) (v : CueVals) (n : Nat) : phaseAt rate c v n = c.phaseOn rate n v := by
  simp only [phaseAt, Ctx.phaseOn, wraps, decide_eq_true_eq]

theorem subset_iff (a b : LineSet) : subset a b = true ↔ ∀ l : Fin 8, inSet l a = true → inSet l b = true := by
  have hbit (l : Fin 8) : inSet l (a &&& ~~~b) = (inSet l a && !inSet l b) := by
    simp [inSet]
  constructor
  · intro h l ha
    have h0 : a &&& ~~~b = 0#8 := by simpa [subset] using h
    have := hbit l
    rw [h0, ha] at this
    simpa [inSet] using this
  · intro h
    have : a &&& ~~~b = 0#8 := LineSet.ext_inSet _ _ fun l => by
      rw [hbit]
      cases ha : inSet l a with
      | false => simp [inSet]
      | true => rw [h l ha]; simp [inSet]
    simp [subset, this]

/-! ## The work of a RECORD pass -/

/-- What the work of an edge on a RECORD pass comes to, its close apart. -/
structure RecordWork where
  ctx : Ctx
  cue : Cue
  notices : List Notice
  events : List Instr

/-- The staging work of a RECORD pass (R97). -/
def Ctx.reserveWork (k : Fin 4) (c : Ctx) (cue : Cue) : RecordWork :=
  if cue.hasRoom then
    { ctx := { c with take := some cue.nextTake }, cue := cue.addTake c.late, notices := []
      events := [.stageRequest { ctx := k, loop := c.loop, action := .punchIn, lines := cue.vals.lines, target := cue.vals.inPt }] }
  else { ctx := { c with kind := .rehearse }, cue := cue, notices := [.takesFull c.loop], events := [] }

/-- A take closed at the out-point of the pass of `c` (R100). -/
def Ctx.shutTake (assigned : LineSet) (c : Ctx) (x : Take) : Take :=
  if c.take = some x.number then Take.close assigned (c.held ||| c.released) x else x

/-- The work of an edge of frame `n` on a pass, its close apart (R96, R97, R99, R100). -/
def Ctx.recordWork (n : Nat) (k : Fin 4) (c : Ctx) (cue : Cue) : RecordWork :=
  match c.kind with
  | .rehearse => { ctx := c, cue := cue, notices := [], events := [] }
  | .record =>
    if n + 1 = cue.vals.inPt ∧ c.phase = .lead then c.reserveWork k cue
    else
      { ctx := c
        cue := if n = cue.vals.outPt then { cue with takes := cue.takes.map (c.shutTake cue.vals.lines) } else cue
        notices := []
        events := if n + 1 = cue.vals.outPt then
            [.stageRequest { ctx := k, loop := c.loop, action := .punchOut, lines := 0, target := cue.vals.outPt }]
          else [] }

/-- Work on a pass whose context was given a value before. -/
theorem Worked.of_setCtx {k : Fin 4} {r : Fin 8} {slot : Nat} {ctx' c : Option Ctx} {cue cue' : Cue} {ns : List Notice}
    {es : List Instr} {s t : State} (h : Worked k r slot ctx' cue cue' ns es (s.setCtx k c) t) :
    Worked k r slot ctx' cue cue' ns es s t where
  outer := h.outer
  bare := h.bare
  raised := h.raised
  pointer := h.pointer
  refind := h.refind
  ctx j := by
    rw [h.ctx]
    split
    · rfl
    · next hj => rw [State.ctx_setCtx, if_neg hj]
  cueWas := h.cueWas
  change := h.change
  told := by
    refine Told.trans (ms := []) ?_ h.told
    exact Told.of_lnk rfl rfl rfl

/-- The context is given another value after work on its pass. -/
theorem Worked.setCtx {k : Fin 4} {r : Fin 8} {slot : Nat} {ctx' : Option Ctx} {cue cue' : Cue} {ns : List Notice}
    {es : List Instr} {s t : State} (h : Worked k r slot ctx' cue cue' ns es s t) (c : Option Ctx) :
    Worked k r slot c cue cue' ns es s (t.setCtx k c) where
  outer := h.outer
  bare := h.bare
  raised := h.raised
  pointer := h.pointer
  refind := h.refind
  ctx j := by
    rw [State.ctx_setCtx]
    split
    · rfl
    · next hj => rw [h.ctx, if_neg hj]
  cueWas := h.cueWas
  change := h.change
  told := by
    have hset : Told [] t (t.setCtx k c) := Told.of_lnk rfl rfl rfl
    simpa using h.told.trans hset

/-- A notice raised after work on a pass. -/
theorem Worked.raise {k : Fin 4} {r : Fin 8} {slot : Nat} {ctx' : Option Ctx} {cue cue' : Cue} {ns : List Notice}
    {es : List Instr} {s t : State} (h : Worked k r slot ctx' cue cue' ns es s t) (n : Notice) :
    Worked k r slot ctx' cue cue' (ns ++ [n]) es s (t.raise n) where
  outer := (State.raise_outer n t).trans h.outer
  bare := by rw [State.raise_cst]; exact h.bare
  raised := by rw [State.raise_raised]; exact h.raised
  pointer := by rw [State.raise_psc]; exact h.pointer
  refind := by rw [State.raise_psc]; exact h.refind
  ctx j := by rw [State.raise_ctx]; exact h.ctx j
  cueWas := h.cueWas
  change := by simp only [State.raise_reel]; exact h.change
  told := h.told.trans (State.raise_told n t)

theorem State.reserve_worked {k : Fin 4} {c : Ctx} {cue : Cue} {s : State} (hk : s.ctx k = some c)
    (hc : s.cue c.reel c.slot = some cue) :
    Worked k c.reel c.slot (some (c.reserveWork k cue).ctx) cue (c.reserveWork k cue).cue (c.reserveWork k cue).notices
      (c.reserveWork k cue).events s (s.reserve k c cue) := by
  unfold State.reserve Ctx.reserveWork
  split
  · exact ((Worked.modCue hk hc (Cue.addTake c.late) fun x => ⟨rfl, rfl, rfl⟩).setCtx _).post _
  · exact ((Worked.none hk hc).setCtx _).raise _

theorem State.closeTake_worked {k : Fin 4} {c : Ctx} {cue : Cue} {s : State} (hk : s.ctx k = some c)
    (hc : s.cue c.reel c.slot = some cue) :
    Worked k c.reel c.slot (some c) cue { cue with takes := cue.takes.map (c.shutTake cue.vals.lines) } [] [] s
      (s.closeTake c cue.vals) := by
  have hclose : s.closeTake c cue.vals = c.take.elim s fun number =>
      s.modCue c.reel c.slot (Cue.modTake number (Take.close cue.vals.lines (c.held ||| c.released))) := by
    unfold State.closeTake
    cases c.take <;> rfl
  rw [hclose]
  exact Worked.changeTake hk hc _ _ fun x => rfl

/-- The work of an edge on a pass, its close apart. -/
theorem State.recordWork_worked {k : Fin 4} {c : Ctx} {cue : Cue} {s : State} (n : Nat) (hk : s.ctx k = some c)
    (hc : s.cue c.reel c.slot = some cue) :
    Worked k c.reel c.slot (some (c.recordWork n k cue).ctx) cue (c.recordWork n k cue).cue (c.recordWork n k cue).notices
      (c.recordWork n k cue).events s (s.recordWork k c cue n) := by
  unfold State.recordWork Ctx.recordWork
  cases hkind : c.kind with
  | rehearse => exact Worked.none hk hc
  | record =>
    dsimp only
    by_cases hstage : n + 1 = cue.vals.inPt ∧ c.phase = .lead
    · rw [if_pos hstage, if_pos hstage]
      exact State.reserve_worked hk hc
    · rw [if_neg hstage, if_neg hstage]
      by_cases hout : n + 1 = cue.vals.outPt
      · have hne : ¬ n = cue.vals.outPt := by omega
        simp only [if_pos hout, if_neg hne]
        exact (Worked.none hk hc).post _
      · simp only [if_neg hout]
        by_cases hclose : n = cue.vals.outPt
        · simp only [if_pos hclose]
          exact State.closeTake_worked hk hc
        · simp only [if_neg hclose]
          exact Worked.none hk hc

/-! ## The work on a pass in the terms of the spec -/

theorem Ctx.recordWork_ctx (n : Nat) (k : Fin 4) (c : Ctx) (cue : Cue) : (c.recordWork n k cue).ctx.reel = c.reel
    ∧ (c.recordWork n k cue).ctx.slot = c.slot := by
  unfold Ctx.recordWork Ctx.reserveWork
  cases c.kind with
  | rehearse => exact ⟨rfl, rfl⟩
  | record =>
    dsimp only
    split
    · split <;> exact ⟨rfl, rfl⟩
    · exact ⟨rfl, rfl⟩

/-- The phase of a pass after step 3 of an edge that does not close it, and its phase before where it does. -/
def Ctx.inPhase (rate : Rate) (n : Nat) (v : CueVals) (c : Ctx) : Ctx :=
  { c with phase := if c.closesOn rate n then c.phase else c.phaseOn rate n v }

/-- What the edge makes of a pass on which it did the work `w`, where `closes` says that it closes it (R101). -/
def RecordWork.ending (closes : Bool) (k : Fin 4) (w : RecordWork) : PassWork :=
  if closes then
    { stays := none, cue := w.cue.afterPass true
      notices := w.notices ++ [.passEnd k w.ctx.reel w.ctx.loop .completed w.ctx.phase
        (w.ctx.take.bind fun m => w.cue.takes.find? fun x => decide (x.number = m))]
      events := w.events ++ [.freeHandover k] }
  else { stays := some w.ctx, cue := w.cue, notices := w.notices, events := w.events }

theorem Ctx.shutTake_eq (assigned : LineSet) (c : Ctx) : c.shutTake assigned = fun x =>
    if c.take = some x.number ∧ x.result = .opened then
      { x with
        lines := c.held ||| c.released
        result :=
          if x.guardTripped then .guarded
          else if ∀ l : Fin 8, inSet l assigned = true → inSet l (c.held ||| c.released) = true then .complete
          else .partialLines }
    else x := by
  funext x
  simp only [Ctx.shutTake, Take.close, closeResult, subset_iff]
  by_cases hn : c.take = some x.number
  · by_cases ho : x.result = .opened <;> simp [hn, ho]
  · simp [hn]

theorem Cue.addTake_eq (late : Bool) (c : Cue) : c.addTake late = { c with
    nextTake := c.nextTake + 1
    takes := (if 6 ≤ c.takes.length then c.takes.eraseP (fun x => !x.circled) else c.takes)
      ++ [{ number := c.nextTake, result := .opened, lines := 0, late := late, guardTripped := false, offset := none,
            circled := false }] } := rfl

theorem Ctx.workOn_eq (rate : Rate) (n : Nat) (k : Fin 4) (c : Ctx) (cue : Cue) : c.workOn rate n k cue =
    ((c.inPhase rate n cue.vals).recordWork n k cue).ending (c.closesOn rate n) k := by
  unfold Ctx.workOn
  dsimp only
  have hphase : (if c.closesOn rate n = true then c.phase else c.phaseOn rate n cue.vals)
      = (c.inPhase rate n cue.vals).phase := rfl
  rw [hphase]
  have hroom : (decide (cue.nextTake < 100) && !(decide (6 ≤ cue.takes.length) && cue.takes.all fun x => x.circled))
      = cue.hasRoom := rfl
  rw [hroom]
  have hshut := c.shutTake_eq cue.vals.lines
  have hp : c.closesOn rate n = true → (c.inPhase rate n cue.vals).phase = c.phase := fun h => by
    simp [Ctx.inPhase, h]
  have hcp : c.inPhase rate n cue.vals = { c with phase := (c.inPhase rate n cue.vals).phase } := rfl
  rw [hcp]
  generalize (c.inPhase rate n cue.vals).phase = p at hp
  generalize c.closesOn rate n = closes at hp
  unfold Ctx.recordWork RecordWork.ending
  dsimp only
  rw [show ({ c with phase := p } : Ctx).shutTake cue.vals.lines = c.shutTake cue.vals.lines from rfl, hshut]
  cases closes with
  | false =>
    cases hkind : c.kind with
    | rehearse => simp
    | record =>
      by_cases hstage : n + 1 = cue.vals.inPt ∧ p = .lead
      · unfold Ctx.reserveWork
        cases cue.hasRoom <;> simp [hstage, Cue.addTake_eq]
      · simp [hstage]
  | true =>
    obtain rfl := hp rfl
    cases hkind : c.kind with
    | rehearse => simp
    | record =>
      by_cases hstage : n + 1 = cue.vals.inPt ∧ c.phase = .lead
      · unfold Ctx.reserveWork
        cases cue.hasRoom <;> simp [hstage, Cue.addTake_eq]
      · simp [hstage]

/-! ## Step 3 for one pass and for all -/

/-- The close of a pass after work on it (R101). -/
theorem State.closeCtx_step {k : Fin 4} {c : Ctx} {cue : Cue} {s t : State} {w : RecordWork} (hreel : w.ctx.reel = c.reel)
    (hslot : w.ctx.slot = c.slot) (h : Worked k c.reel c.slot (some w.ctx) cue w.cue w.notices w.events s t)
    (hr : c.reel = s.cst.playReel) : PassStep k c cue (w.ending true k) s (t.closeCtx k) := by
  have htk : t.ctx k = some w.ctx := by rw [h.ctx, if_pos rfl]
  rw [← hreel, ← hslot] at h
  have hend := h.ended (hreel.trans hr) true .completed
  have hfreed := Tended.freed (c := c) (hslot ▸ hreel ▸ hend)
  simp only [State.closeCtx, htk, RecordWork.ending, hreel, hslot, if_true]
  exact hfreed

/-- Step 3 of R91 for one pass meets `Ctx.workOn`. -/
theorem State.phaseWork_step {n : Nat} {k : Fin 4} {c : Ctx} {cue : Cue} {s : State} (hk : s.ctx k = some c)
    (hr : c.reel = s.cst.playReel) (hc : s.cue c.reel c.slot = some cue) :
    PassStep k c cue (c.workOn s.pos.rate n k cue) s (s.phaseWork n k) := by
  have hset (d : Ctx) : (s.setCtx k (some d)).ctx k = some d := by rw [State.ctx_setCtx, if_pos rfl]
  have hphase : s.phaseWork n k = if c.closesOn s.pos.rate n then
        ((s.setCtx k (some c)).recordWork k c cue n).closeCtx k
      else (s.setCtx k (some { c with phase := c.phaseOn s.pos.rate n cue.vals })).recordWork k
        { c with phase := c.phaseOn s.pos.rate n cue.vals } cue n := by
    simp only [State.phaseWork, hk, hc, closesAt_eq, phaseAt_eq]
  rw [hphase, Ctx.workOn_eq]
  cases hcl : c.closesOn s.pos.rate n with
  | true =>
    have hin : c.inPhase s.pos.rate n cue.vals = c := by simp [Ctx.inPhase, hcl]
    obtain ⟨hreel, hslot⟩ := c.recordWork_ctx n k cue
    rw [if_pos rfl, hin]
    exact State.closeCtx_step hreel hslot (State.recordWork_worked n (hset c) hc).of_setCtx hr
  | false =>
    have hin : c.inPhase s.pos.rate n cue.vals = { c with phase := c.phaseOn s.pos.rate n cue.vals } := by
      simp [Ctx.inPhase, hcl]
    rw [if_neg Bool.false_ne_true, hin]
    exact Tended.stays (c := c)
      (State.recordWork_worked n (hset { c with phase := c.phaseOn s.pos.rate n cue.vals }) hc).of_setCtx.tended

/-- Step 3 of R91 meets `Ctx.workOn` for every pass in flight. -/
theorem State.edgePhases_passed (n : Nat) {s : State} (hs : s.playReel.lawful = true) (hmet : s.PassesMet) :
    Passed (fun k c cue => c.workOn s.pos.rate n k cue) allCtx s (s.edgePhases n) := by
  have := Passed.foldl (W := fun k c cue => c.workOn s.pos.rate n k cue) (f := State.phaseWork n) hs hmet
    (fun u k hk => by simp [State.phaseWork, hk])
    (fun u k c cue houter hk hr hc => by
      rw [← State.rate_of_outer houter]
      exact State.phaseWork_step hk hr hc)
    allCtx [] s (Passed.nil _ s) allCtx_nodup
  simpa [State.edgePhases] using this

theorem Cue.afterPass_unwaited (b : Bool) (c : Cue) : c.unwaited.afterPass b = (c.afterPass b).unwaited := by
  rw [Cue.afterPass_eq, Cue.afterPass_eq]
  simp only [Cue.unwaited, Bool.false_and]
  rfl

theorem Ctx.recordWork_unwaited (n : Nat) (k : Fin 4) (c : Ctx) (cue : Cue) : c.recordWork n k cue.unwaited =
    { c.recordWork n k cue with cue := (c.recordWork n k cue).cue.unwaited } := by
  unfold Ctx.recordWork
  cases c.kind with
  | rehearse => rfl
  | record =>
    dsimp only
    by_cases hstage : n + 1 = cue.vals.inPt ∧ c.phase = .lead
    · rw [if_pos hstage, if_pos (show n + 1 = cue.unwaited.vals.inPt ∧ c.phase = .lead from hstage)]
      unfold Ctx.reserveWork
      cases hr : cue.hasRoom with
      | true => rw [if_pos (show cue.unwaited.hasRoom = true from hr), if_pos rfl]; rfl
      | false =>
        rw [if_neg (show ¬ cue.unwaited.hasRoom = true by rw [show cue.unwaited.hasRoom = cue.hasRoom from rfl, hr]; decide),
          if_neg Bool.false_ne_true]
    · rw [if_neg hstage, if_neg (show ¬ (n + 1 = cue.unwaited.vals.inPt ∧ c.phase = .lead) from hstage)]
      by_cases hout : n = cue.vals.outPt
      · rw [if_pos hout, if_pos (show n = cue.unwaited.vals.outPt from hout)]; rfl
      · rw [if_neg hout, if_neg (show ¬ n = cue.unwaited.vals.outPt from hout)]; rfl

/-- The work on a pass reads all but the waited flag of its cue. -/
theorem Ctx.workOn_unwaited (rate : Rate) (n : Nat) (k : Fin 4) (c : Ctx) (cue : Cue) :
    c.workOn rate n k cue.unwaited = { c.workOn rate n k cue with cue := (c.workOn rate n k cue).cue.unwaited } := by
  rw [Ctx.workOn_eq, Ctx.workOn_eq, show cue.unwaited.vals = cue.vals from rfl, Ctx.recordWork_unwaited]
  unfold RecordWork.ending
  cases c.closesOn rate n with
  | true => simp only [if_true, Cue.afterPass_unwaited]; rfl
  | false => rfl

end Sys2Proof.Machine
end

section
/-! Step 4 of R91: the candidates of the slice enter the FREE contexts in slice order, or are marked waited (R91 to R97). -/

namespace Sys2Proof.Machine

/-! ## One entry, as work on a context and a cue -/

theorem Reel.modCue_modCue (slot : Nat) (f g : Cue → Cue) (r : Reel) :
    (r.modCue slot f).modCue slot g = r.modCue slot fun c => g (f c) := by
  unfold Reel.modCue
  simp only [List.map_map]
  congr 1
  refine List.map_congr_left fun p _ => ?_
  by_cases h : p.1 = slot <;> simp [h]

/-- Work on a pass after work on it. -/
theorem Worked.trans {k : Fin 4} {r : Fin 8} {slot : Nat} {ctx' ctx'' : Option Ctx} {cue cue' cue'' : Cue}
    {ns ns' : List Notice} {es es' : List Instr} {s t u : State} (h : Worked k r slot ctx' cue cue' ns es s t)
    (h' : Worked k r slot ctx'' cue' cue'' ns' es' t u) : Worked k r slot ctx'' cue cue'' (ns ++ ns') (es ++ es') s u where
  outer := h'.outer.trans h.outer
  bare := h'.bare.trans h.bare
  raised := by rw [h'.raised, h.raised, List.append_assoc]
  pointer := h'.pointer.trans h.pointer
  refind := h'.refind.trans h.refind
  ctx j := by
    rw [h'.ctx]
    split
    · rfl
    · next hj => rw [h.ctx, if_neg hj]
  cueWas := h.cueWas
  change := by
    obtain ⟨f, hf, hfc, hfr⟩ := h.change
    obtain ⟨g, hg, hgc, hgr⟩ := h'.change
    refine ⟨fun c => g (f c), fun c => ?_, (congrArg g hfc).trans hgc, fun r' => ?_⟩
    · obtain ⟨h1, h2, h3⟩ := hf c
      obtain ⟨h4, h5, h6⟩ := hg (f c)
      exact ⟨h4.trans h1, h5.trans h2, h6.trans h3⟩
    · rw [hgr, hfr, hfr, if_pos rfl, Reel.modCue_modCue]
      split <;> rfl
  told := h.told.trans h'.told

/-- A candidate for entry: its slot, its record and the kind it is ARMED with. -/
abbrev Entry : Type := Nat × Cue × ArmKind

/-- The context of a cue that enters on frame `n` of reel `play` (R84, R94). -/
def Entry.ctx (play : Fin 8) (n : Nat) (x : Entry) : Ctx :=
  { reel := play, slot := x.1, loop := x.2.1.loop, kind := x.2.2, phase := .lead, entry := x.2.1.vals.entry,
    close := x.2.1.vals.close, late := decide (x.2.1.vals.entry < n), granted := 0, held := 0, released := 0, take := none }

/-- The record of a cue that enters (R94). -/
def Entry.cue (x : Entry) : Cue := { x.2.1 with state := .passing x.2.2, waited := false }

/-- What an entry comes to, the staging work on the frame before the in-point included (R94, R95, R97). -/
def Entry.work (play : Fin 8) (n : Nat) (k : Fin 4) (x : Entry) : RecordWork :=
  if n + 1 = x.2.1.vals.inPt ∧ x.2.2 = .record then (x.ctx play n).reserveWork k x.cue
  else { ctx := x.ctx play n, cue := x.cue, notices := [], events := [] }

/-- The notices that an entry raises (R94, R97). -/
def Entry.told (play : Fin 8) (n : Nat) (p : Fin 4 × Entry) : List Notice :=
  .passBegin p.1 play p.2.2.1.loop p.2.2.1.vals.char p.2.2.2 (decide (p.2.2.1.vals.entry < n))
    :: (p.2.work play n p.1).notices

/-- What an entry hands on (R94, R97). -/
def Entry.handed (play : Fin 8) (n : Nat) (p : Fin 4 × Entry) : List Instr :=
  .entryHandover p.1 n :: (p.2.work play n p.1).events

theorem State.reserve_congr {cue cue' : Cue} (hv : cue'.vals = cue.vals) (ht : cue'.takes = cue.takes)
    (hn : cue'.nextTake = cue.nextTake) (k : Fin 4) (c : Ctx) (s : State) : s.reserve k c cue' = s.reserve k c cue := by
  obtain ⟨_, vals, _, _, _, _, nextTake, takes, _⟩ := cue
  obtain ⟨_, vals', _, _, _, _, nextTake', takes', _⟩ := cue'
  obtain rfl : vals' = vals := hv
  obtain rfl : takes' = takes := ht
  obtain rfl : nextTake' = nextTake := hn
  rfl

/-- A cue enters a pass (R94, R95, R97). -/
theorem State.enter_worked {n : Nat} {k : Fin 4} {x : Entry} {s : State} (hc : s.cue s.cst.playReel x.1 = some x.2.1) :
    Worked k s.cst.playReel x.1 (some (x.work s.cst.playReel n k).ctx) x.2.1 (x.work s.cst.playReel n k).cue
      (Entry.told s.cst.playReel n (k, x)) (Entry.handed s.cst.playReel n (k, x)) s (s.enter n k x.1 x.2.2 x.2.1) := by
  obtain ⟨slot, cue, kind⟩ := x
  let c : Ctx := Entry.ctx s.cst.playReel n (slot, cue, kind)
  have hset : (s.setCtx k (some c)).ctx k = some c := by rw [State.ctx_setCtx, if_pos rfl]
  have hbegin := (((Worked.modCue (r := s.cst.playReel) (slot := slot) (k := k) hset hc
    (fun x => { x with state := .passing kind, waited := false }) fun x => ⟨rfl, rfl, rfl⟩).raise
    (.passBegin k s.cst.playReel cue.loop cue.vals.char kind (decide (cue.vals.entry < n)))).post
    [.entryHandover k n]).of_setCtx
  unfold State.enter Entry.told Entry.handed Entry.work
  dsimp only at hbegin ⊢
  by_cases hstage : n + 1 = cue.vals.inPt ∧ kind = .record
  · rw [if_pos hstage, if_pos hstage]
    have hk := hbegin.ctx k
    rw [if_pos rfl] at hk
    have hcue := hbegin.cue slot
    rw [if_pos rfl] at hcue
    rw [← State.reserve_congr (cue := cue) (cue' := Entry.cue (slot, cue, kind)) rfl rfl rfl]
    exact hbegin.trans (State.reserve_worked (c := c) hk hcue)
  · rw [if_neg hstage, if_neg hstage]
    exact hbegin

/-! ## All entries -/

/-- The entries `pairs` were made from `s`, and the candidates `waits` marked waited; nothing else was done. -/
structure Entered (play : Fin 8) (n : Nat) (pairs : List (Fin 4 × Entry)) (waits : List Entry) (s t : State) : Prop where
  outer : t.outer = s.outer
  bare : t.cst.bare = s.cst.bare
  raised : t.raised = s.raised ++ pairs.flatMap (Entry.handed play n)
  pointer : t.psc.pointer = s.psc.pointer
  refind : t.psc.refind = s.psc.refind
  ctxIn : ∀ p ∈ pairs, t.ctx p.1 = some (p.2.work play n p.1).ctx
  ctxs : ∀ k, k ∉ pairs.map Prod.fst → t.ctx k = s.ctx k
  reels : ∀ r, r ≠ play → t.reel r = s.reel r
  header : { t.reel play with cues := [] } = { s.reel play with cues := [] }
  cueIn : ∀ p ∈ pairs, t.cue play p.2.1 = some (p.2.work play n p.1).cue
  cueWaits : ∀ x ∈ waits, t.cue play x.1 = some { x.2.1 with waited := true }
  cues : ∀ slot, slot ∉ pairs.map (fun p => p.2.1) → slot ∉ waits.map Prod.fst →
    t.cue play slot = s.cue play slot
  edited : ∀ (done : List Nat) (x : Reel), Reel.Edited done x (s.reel play) → Reel.Edited done x (t.reel play)
  told : Told (pairs.flatMap (Entry.told play n)) s t

theorem Entered.nil (play : Fin 8) (n : Nat) (s : State) : Entered play n [] [] s s where
  outer := rfl
  bare := rfl
  raised := (List.append_nil _).symm
  pointer := rfl
  refind := rfl
  ctxIn _ hp := absurd hp List.not_mem_nil
  ctxs _ _ := rfl
  reels _ _ := rfl
  header := rfl
  cueIn _ hp := absurd hp List.not_mem_nil
  cueWaits _ hx := absurd hx List.not_mem_nil
  cues _ _ _ := rfl
  edited _ _ h := h
  told := Told.refl s

/-- An entry made before the others. -/
theorem Entered.enter {n : Nat} {pairs : List (Fin 4 × Entry)} {waits : List Entry} {k : Fin 4} {x : Entry} {s u t : State}
    (hw : Worked k s.cst.playReel x.1 (some (x.work s.cst.playReel n k).ctx) x.2.1 (x.work s.cst.playReel n k).cue
      (Entry.told s.cst.playReel n (k, x)) (Entry.handed s.cst.playReel n (k, x)) s u)
    (h : Entered s.cst.playReel n pairs waits u t) (hk : k ∉ pairs.map Prod.fst) (hp : x.1 ∉ pairs.map fun p => p.2.1)
    (hx : x.1 ∉ waits.map Prod.fst) : Entered s.cst.playReel n ((k, x) :: pairs) waits s t := by
  have htended := hw.tended
  obtain ⟨g, hg, -, hgr⟩ := hw.change
  have hureel : u.reel s.cst.playReel = s.playReel.modCue x.1 g := (hgr _).trans (if_pos rfl)
  obtain ⟨outer, bare, raised, pointer, refind, ctxIn, ctxs, reels, header, cueIn, cueWaits, cues, edited, told⟩ := h
  refine { outer := outer.trans hw.outer, bare := bare.trans hw.bare, raised := ?_, pointer := pointer.trans hw.pointer,
           refind := refind.trans hw.refind, ctxIn := fun p hmem => ?_, ctxs := fun j hj => ?_,
           reels := fun r hr => (reels r hr).trans (htended.reels r hr), header := ?_, cueIn := fun p hmem => ?_,
           cueWaits := cueWaits, cues := fun slot hs hs' => ?_, edited := fun done y hy => ?_, told := ?_ }
  · rw [raised, hw.raised, List.flatMap_cons, List.append_assoc]
  · rcases List.mem_cons.mp hmem with rfl | hmem
    · rw [ctxs _ hk, hw.ctx, if_pos rfl]
    · exact ctxIn p hmem
  · rw [List.map_cons, List.mem_cons, not_or] at hj
    rw [ctxs j hj.2, hw.ctx, if_neg hj.1]
  · rw [header, hureel]; rfl
  · rcases List.mem_cons.mp hmem with rfl | hmem
    · rw [cues _ hp hx]
      exact htended.cueAt
    · exact cueIn p hmem
  · rw [List.map_cons, List.mem_cons, not_or] at hs
    rw [cues slot hs.2 hs']
    exact htended.cues slot hs.1
  · refine edited done y ?_
    rw [hureel]
    exact hy.modCue x.1 g hg
  · rw [List.flatMap_cons]
    exact hw.told.trans told

/-- A candidate marked waited before the others are served (R93). -/
theorem Entered.wait {n : Nat} {pairs : List (Fin 4 × Entry)} {waits : List Entry} {x : Entry} {s t : State}
    (hc : s.cue s.cst.playReel x.1 = some x.2.1)
    (h : Entered s.cst.playReel n pairs waits (s.modCue s.cst.playReel x.1 fun c => { c with waited := true }) t)
    (hp : x.1 ∉ pairs.map fun p => p.2.1) (hx : x.1 ∉ waits.map Prod.fst) : Entered s.cst.playReel n pairs (x :: waits) s t := by
  let u := s.modCue s.cst.playReel x.1 fun c => { c with waited := true }
  have hureel (r : Fin 8) : u.reel r = if r = s.cst.playReel
      then s.playReel.modCue x.1 (fun c => { c with waited := true }) else s.reel r := State.reel_modReel _ _ _ _
  have hucue (slot : Nat) : u.cue s.cst.playReel slot
      = if slot = x.1 then some { x.2.1 with waited := true } else s.cue s.cst.playReel slot := by
    rw [State.cue, hureel, if_pos rfl, Reel.cue_modCue]
    split
    · next e => rw [e, show s.playReel.cue x.1 = some x.2.1 from hc]; rfl
    · rfl
  obtain ⟨outer, bare, raised, pointer, refind, ctxIn, ctxs, reels, header, cueIn, cueWaits, cues, edited, told⟩ := h
  refine { outer := outer, bare := bare, raised := raised, pointer := pointer, refind := refind, ctxIn := ctxIn, ctxs := ctxs,
           reels := fun r hr => ?_, header := header.trans ?_, cueIn := cueIn, cueWaits := fun y hy => ?_,
           cues := fun slot hs hs' => ?_, edited := fun done y hy => ?_, told := ?_ }
  · rw [reels r hr]
    exact (hureel r).trans (if_neg hr)
  · rw [show State.reel _ s.cst.playReel = _ from hureel s.cst.playReel, if_pos rfl]
    rfl
  · rcases List.mem_cons.mp hy with rfl | hy
    · exact (cues _ hp hx).trans ((hucue _).trans (if_pos rfl))
    · exact cueWaits y hy
  · rw [List.map_cons, List.mem_cons, not_or] at hs'
    exact (cues slot hs hs'.2).trans ((hucue slot).trans (if_neg hs'.1))
  · refine edited done y ?_
    rw [show State.reel _ s.cst.playReel = _ from hureel s.cst.playReel, if_pos rfl]
    exact hy.modCue x.1 _ fun c => ⟨rfl, rfl, rfl⟩
  · refine Told.trans (ms := []) ?_ told
    exact Told.of_lnk rfl rfl rfl

/-! ## Step 4 -/

/-- The FREE contexts, in index order. -/
def State.freeCtxs (s : State) : List (Fin 4) := allCtx.filter fun k => (s.ctx k).isNone

/-- The candidate in a slot of the play reel at frame `n`, those in the slots `served` set aside (R92). -/
def State.entryOf (n : Nat) (served : List Nat) (s : State) (slot : Nat) : Option Entry :=
  (s.cue s.cst.playReel slot).bind fun c =>
    if served.contains slot then none else (candidate n c).map fun kind => (slot, c, kind)

/-- The candidates among the slots `l` that enter (R93, log entry 31). -/
def State.entersOf (n : Nat) (served l : List Nat) (s : State) : List Entry :=
  if s.cst.pendingPlay.isSome then [] else (l.filterMap (s.entryOf n served)).take s.freeCtxs.length

/-- The candidates among the slots `l` that are marked waited (R93, log entry 31). -/
def State.waitsOf (n : Nat) (served l : List Nat) (s : State) : List Entry :=
  if s.cst.pendingPlay.isSome = true ∧ s.freeCtxs ≠ [] then []
  else (l.filterMap (s.entryOf n served)).drop s.freeCtxs.length

theorem State.freeCtxs_nodup (s : State) : s.freeCtxs.Nodup := allCtx_nodup.filter _

theorem State.mem_freeCtxs {s : State} {k : Fin 4} : k ∈ s.freeCtxs ↔ s.ctx k = none := by
  simp [State.freeCtxs, mem_allCtx k]

theorem State.firstFree_eq (s : State) : s.firstFree = s.freeCtxs.head? := List.head?_filter.symm

theorem State.freeCtxs_congr {s t : State} (h : ∀ k, t.ctx k = s.ctx k) : t.freeCtxs = s.freeCtxs := by
  simp only [State.freeCtxs, h]

/-- The lowest FREE context given to a pass, the others are FREE still. -/
theorem State.freeCtxs_tail {s t : State} {k : Fin 4} {fs : List (Fin 4)} {c : Ctx} (hs : s.freeCtxs = k :: fs)
    (h : ∀ j, t.ctx j = if j = k then some c else s.ctx j) : t.freeCtxs = fs := by
  have hn := s.freeCtxs_nodup
  have hfilter : t.freeCtxs = s.freeCtxs.filter fun j => decide (j ≠ k) := by
    rw [State.freeCtxs, State.freeCtxs, List.filter_filter]
    refine List.filter_congr fun j _ => ?_
    rw [h]
    by_cases hj : j = k <;> simp [hj]
  rw [hs] at hn
  obtain ⟨hk, -⟩ := List.nodup_cons.mp hn
  rw [hfilter, hs, List.filter_cons_of_neg (by simp), List.filter_eq_self]
  intro j hj
  simpa using fun e : j = k => hk (e ▸ hj)

theorem State.entryOf_some {n : Nat} {served : List Nat} {s : State} {slot : Nat} {x : Entry}
    (h : s.entryOf n served slot = some x) : x.1 = slot ∧ s.cue s.cst.playReel slot = some x.2.1
      ∧ served.contains slot = false ∧ candidate n x.2.1 = some x.2.2 := by
  unfold State.entryOf at h
  obtain ⟨c, hc, h⟩ := Option.bind_eq_some_iff.mp h
  split at h
  · cases h
  · next hs =>
    obtain ⟨kind, hkind, rfl⟩ := Option.map_eq_some_iff.mp h
    exact ⟨rfl, hc, by simpa using hs, hkind⟩

theorem State.entryOf_congr {n : Nat} {served : List Nat} {s t : State} (hplay : t.cst.playReel = s.cst.playReel) {slot : Nat}
    (h : t.cue s.cst.playReel slot = s.cue s.cst.playReel slot) : t.entryOf n served slot = s.entryOf n served slot := by
  simp only [State.entryOf, hplay, h]

/-- A slot without a candidate is passed over. -/
theorem State.serve_none {n : Nat} {served : List Nat} {s : State} {slot : Nat} (h : s.entryOf n served slot = none) :
    s.serve n served slot = s := by
  unfold State.serve
  unfold State.entryOf at h
  cases hc : s.cue s.cst.playReel slot with
  | none => rfl
  | some c =>
    rw [hc, Option.bind_some] at h
    cases hs : served.contains slot with
    | true => cases hk : candidate n c <;> simp
    | false =>
      rw [hs] at h
      cases hk : candidate n c with
      | none => simp [hk]
      | some kind => simp [hk] at h

/-- A candidate that finds a FREE context enters it, unless a play reel is pending; one that finds none is marked waited. -/
theorem State.serve_some {n : Nat} {served : List Nat} {s : State} {slot : Nat} {x : Entry}
    (h : s.entryOf n served slot = some x) : s.serve n served slot =
      s.freeCtxs.head?.elim (s.modCue s.cst.playReel x.1 fun c => { c with waited := true }) fun k =>
        if s.cst.pendingPlay.isSome then s else s.enter n k x.1 x.2.2 x.2.1 := by
  obtain ⟨hslot, hc, hs, hkind⟩ := State.entryOf_some h
  rw [← State.firstFree_eq, hslot]
  simp only [State.serve, hc, hkind, hs]
  cases s.firstFree <;> rfl

theorem State.entriesOf_congr {n : Nat} {served l : List Nat} {s t : State} (hplay : t.cst.playReel = s.cst.playReel)
    (h : ∀ slot ∈ l, t.cue s.cst.playReel slot = s.cue s.cst.playReel slot) :
    l.filterMap (t.entryOf n served) = l.filterMap (s.entryOf n served) :=
  List.filterMap_congr fun slot hs => State.entryOf_congr hplay (h slot hs)

/-- The candidates among the slots `l` stand in slots of `l`. -/
theorem State.slots_of_entries {n : Nat} {served l : List Nat} {s : State} {x : Entry} (h : x ∈ l.filterMap (s.entryOf n served)) :
    x.1 ∈ l := by
  obtain ⟨slot, hslot, hx⟩ := List.mem_filterMap.mp h
  rw [(State.entryOf_some hx).1]
  exact hslot

theorem State.mem_entersOf {n : Nat} {served l : List Nat} {s : State} {x : Entry} (h : x ∈ s.entersOf n served l) :
    x ∈ l.filterMap (s.entryOf n served) := by
  unfold State.entersOf at h
  split at h
  · cases h
  · exact List.mem_of_mem_take h

theorem State.mem_waitsOf {n : Nat} {served l : List Nat} {s : State} {x : Entry} (h : x ∈ s.waitsOf n served l) :
    x ∈ l.filterMap (s.entryOf n served) := by
  unfold State.waitsOf at h
  split at h
  · cases h
  · exact List.mem_of_mem_drop h

/-- Step 4 of R91: the candidates of the slots `l`, each once, take the FREE contexts in list order, lowest index first, and
those that find all four ACTIVE are marked waited. -/
theorem State.serve_foldl (n : Nat) (served : List Nat) : ∀ (l : List Nat) (s : State), l.Nodup →
    Entered s.cst.playReel n (s.freeCtxs.zip (s.entersOf n served l)) (s.waitsOf n served l) s (l.foldl (State.serve n served) s)
  | [], s, _ => by
    have he : s.entersOf n served [] = [] := by simp [State.entersOf]
    have hw : s.waitsOf n served [] = [] := by simp [State.waitsOf]
    rw [he, hw, List.zip_nil_right]
    exact Entered.nil _ n s
  | slot :: l, s, hn => by
    obtain ⟨hslot, hl⟩ := List.nodup_cons.mp hn
    rw [List.foldl_cons]
    cases hx : s.entryOf n served slot with
    | none =>
      have hcands : (slot :: l).filterMap (s.entryOf n served) = l.filterMap (s.entryOf n served) :=
        List.filterMap_cons_none hx
      rw [State.serve_none hx]
      have := State.serve_foldl n served l s hl
      simp only [State.entersOf, State.waitsOf, hcands] at this ⊢
      exact this
    | some x =>
      obtain ⟨hx1, hc, -, -⟩ := State.entryOf_some hx
      have hcands : (slot :: l).filterMap (s.entryOf n served) = x :: l.filterMap (s.entryOf n served) :=
        List.filterMap_cons_some hx
      have hnotin {xs : List Entry} (h : ∀ y ∈ xs, y.1 ∈ l) : x.1 ∉ xs.map Prod.fst := by
        intro hmem
        obtain ⟨y, hy, he⟩ := List.mem_map.mp hmem
        exact hslot (hx1 ▸ he ▸ h y hy)
      have hne : ∀ j ∈ l, j ≠ x.1 := fun j hj e => hslot (by rw [← hx1, ← e]; exact hj)
      rw [State.serve_some hx]
      cases hfree : s.freeCtxs with
      | nil =>
        let u := s.modCue s.cst.playReel x.1 fun c => { c with waited := true }
        have hufree : u.freeCtxs = [] := (State.freeCtxs_congr (s := s) fun k => rfl).trans hfree
        have hucands : l.filterMap (u.entryOf n served) = l.filterMap (s.entryOf n served) :=
          State.entriesOf_congr rfl fun j hj => by
            rw [State.cue_modCue]
            exact if_neg fun h => hne j hj h.2
        have hwaits : s.waitsOf n served (slot :: l) = x :: u.waitsOf n served l := by
          simp [State.waitsOf, hfree, hufree, hcands, hucands]
        have ih := State.serve_foldl n served l u hl
        rw [hufree, List.zip_nil_left] at ih
        rw [List.zip_nil_left, hwaits]
        exact Entered.wait (hx1 ▸ hc) ih List.not_mem_nil (hnotin fun y hy => State.slots_of_entries (State.mem_waitsOf hy))
      | cons k fs =>
        cases hpend : s.cst.pendingPlay with
        | some r =>
          have ih := State.serve_foldl n served l s hl
          have he (l : List Nat) : s.entersOf n served l = [] := by simp [State.entersOf, hpend]
          have hw (l : List Nat) : s.waitsOf n served l = [] := by simp [State.waitsOf, hpend, hfree]
          rw [he, hw, List.zip_nil_right] at ih ⊢
          exact ih
        | none =>
          have hworked := State.enter_worked (n := n) (k := k) (x := x) (s := s) (hx1 ▸ hc)
          let u := s.enter n k x.1 x.2.2 x.2.1
          have hufree : u.freeCtxs = fs := State.freeCtxs_tail hfree hworked.ctx
          have hucands : l.filterMap (u.entryOf n served) = l.filterMap (s.entryOf n served) :=
            State.entriesOf_congr (CueStore.playReel_of_bare hworked.bare) fun j hj =>
              (hworked.cue j).trans (if_neg (hne j hj))
          have hupend : u.cst.pendingPlay = none := (CueStore.pendingPlay_of_bare hworked.bare).trans hpend
          have henters : s.entersOf n served (slot :: l) = x :: u.entersOf n served l := by
            simp [State.entersOf, hpend, hupend, hfree, hufree, hcands, hucands]
          have hwaits : s.waitsOf n served (slot :: l) = u.waitsOf n served l := by
            simp [State.waitsOf, hpend, hupend, hfree, hufree, hcands, hucands]
          have ih := State.serve_foldl n served l u hl
          rw [hufree, show u.cst.playReel = s.cst.playReel from CueStore.playReel_of_bare hworked.bare] at ih
          rw [henters, hwaits, List.zip_cons_cons]
          have hk : k ∉ fs := (List.nodup_cons.mp (hfree ▸ s.freeCtxs_nodup)).1
          refine Entered.enter hworked ih (fun h => ?_) (fun h => ?_)
            (hnotin fun y hy => State.slots_of_entries (State.mem_waitsOf hy))
          · obtain ⟨p, hp, rfl⟩ := List.mem_map.mp h
            exact hk (List.of_mem_zip hp).1
          · obtain ⟨p, hp, he⟩ := List.mem_map.mp h
            exact hnotin (fun y hy => State.slots_of_entries (State.mem_entersOf hy))
              (List.mem_map.mpr ⟨p.2, (List.of_mem_zip hp).2, he⟩)

end Sys2Proof.Machine
end

section
/-! A running edge as a whole: step 2 (`Pointed`), step 3 (`Passed`) and step 4 (`Entered`) put together, in the terms of the
state that the edge finds. -/

namespace Sys2Proof.Machine

/-! ## Step 2 as step 3 finds it -/

theorem State.markWhere_false (s : State) : s.markWhere false = s := by
  simp [State.markWhere]

theorem State.edgeWork_running {e : FrameEdge} (he : runningEdge e = true) (s : State) :
    s.edgeWork e = (s.pointerWork e).edgeRuns e.n := by
  have hsw : switched s s = false := by
    unfold switched
    cases s.cst.pendingPlay <;> rfl
  simp only [State.edgeWork, State.edgeFirst_running e s he, hsw, State.markWhere_false, he, Bool.false_eq_true, if_false,
    if_true]

section
variable {q : Nat} {tested : List Nat} {ns : List Notice} {s v : State}

theorem Pointed.ctx (h : Pointed q tested ns s v) (k : Fin 4) : v.ctx k = s.ctx k := by rw [State.ctx, h.ctxs]; rfl

theorem Pointed.playReel (h : Pointed q tested ns s v) : v.cst.playReel = s.cst.playReel := CueStore.playReel_of_bare h.bare

theorem Pointed.order (h : Pointed q tested ns s v) : (v.reel s.cst.playReel).order = s.playReel.order := by
  have := h.header
  simp only [Reel.mk.injEq] at this
  simp [this]

theorem Pointed.state (h : Pointed q tested ns s v) : (v.reel s.cst.playReel).state = s.playReel.state := by
  have := h.header
  simp only [Reel.mk.injEq] at this
  simp [this]

/-- A cue after step 2 is the one before it, or that with its waited flag cleared. -/
theorem Pointed.cue_cases (h : Pointed q tested ns s v) {slot : Nat} {c : Cue} (hc : s.cue s.cst.playReel slot = some c) :
    v.cue s.cst.playReel slot = some (if slot ∈ tested then c.unwaited else c) := by
  rw [h.cues, hc]
  split <;> rfl

theorem Pointed.passesMet (h : Pointed q tested ns s v) (hmet : s.PassesMet) : v.PassesMet where
  reel k c hk := by rw [h.playReel]; exact hmet.reel k c (h.ctx k ▸ hk)
  cue k c hk := by
    obtain ⟨cue, hc, hp⟩ := hmet.cue k c (h.ctx k ▸ hk)
    rw [h.playReel]
    refine ⟨_, h.cue_cases hc, ?_⟩
    split <;> exact hp
  distinct j k c d hj hk := hmet.distinct j k c d (h.ctx j ▸ hj) (h.ctx k ▸ hk)

theorem Pointed.lawful (h : Pointed q tested ns s v) (hs : s.playReel.lawful = true) : v.playReel.lawful = true := by
  have hkeys := Reel.keys_of_labels (h.edited [] _ (Reel.Edited.refl _)).labels
  have hplay : v.playReel = v.reel s.cst.playReel := by rw [State.playReel, h.playReel]
  rw [hplay]
  have hs' := hs
  simp only [Reel.lawful, Bool.and_eq_true, decide_eq_true_eq] at hs' ⊢
  obtain ⟨⟨hrise, -⟩, hperm⟩ := hs'
  refine ⟨⟨hkeys ▸ hrise, ?_⟩, by rw [hkeys, h.order]; exact hperm⟩
  rw [List.all_eq_true]
  intro p hp
  have hcue : v.cue s.cst.playReel p.1 = some p.2 := Reel.cue_of_mem (hkeys ▸ Reel.keys_nodup hs) hp
  rw [h.cues] at hcue
  cases hc : s.cue s.cst.playReel p.1 with
  | none =>
    rw [hc] at hcue
    split at hcue <;> cases hcue
  | some c =>
    obtain ⟨hlt, htakes⟩ := Reel.lawful_cue hs hc
    have hp2 : p.2.takesLawful = c.takesLawful := by
      rw [hc] at hcue
      split at hcue
      · have he := congrArg Cue.takesLawful (Option.some.inj hcue)
        exact he.symm
      · rw [Option.some.inj hcue]
    simp [hlt, hp2, htakes]

/-! ## The works of step 3 -/

/-- Work on a pass, its cue apart from the waited flag. -/
def PassWork.unwaited (w : PassWork) : PassWork := { w with cue := w.cue.unwaited }

/-- The work of step 3 on the pass of each context, as the spec says it from the state the edge finds. -/
def State.runWork (n : Nat) (s : State) (k : Fin 4) : Option PassWork :=
  s.workOf (fun k c cue => c.workOn s.pos.rate n k cue) k

/-- Step 2 changes nothing that step 3 reads. -/
theorem Pointed.workOf (h : Pointed q tested ns s v) (n : Nat) (k : Fin 4) :
    (v.workOf (fun k c cue => c.workOn v.pos.rate n k cue) k).map PassWork.unwaited
      = (s.runWork n k).map PassWork.unwaited := by
  have hcue (r : Fin 8) (slot : Nat) : (v.cue r slot).map Cue.unwaited = (s.cue r slot).map Cue.unwaited := by
    by_cases hr : r = s.cst.playReel
    · rw [hr, h.unwaited]
    · rw [State.cue, State.cue, h.reels r hr]
  have hwork (c : Ctx) (x : Option Cue) : (x.map fun cue => c.workOn s.pos.rate n k cue).map PassWork.unwaited
      = (x.map Cue.unwaited).map fun cue => c.workOn s.pos.rate n k cue := by
    rw [Option.map_map, Option.map_map]
    refine congrArg (fun f => x.map f) (funext fun cue => ?_)
    exact (c.workOn_unwaited s.pos.rate n k cue).symm
  rw [State.runWork, State.workOf, State.workOf, h.ctx, State.rate_of_outer h.outer]
  cases s.ctx k with
  | none => rfl
  | some c =>
    rw [Option.bind_some, Option.bind_some, hwork, hwork, hcue]

/-- What is read of the works apart from their cues is the same. -/
theorem Pointed.works_flatMap {β : Type} (h : Pointed q tested ns s v) (n : Nat) (g : PassWork → List β)
    (hg : ∀ w : PassWork, g w.unwaited = g w) :
    (allCtx.filterMap (v.workOf fun k c cue => c.workOn v.pos.rate n k cue)).flatMap g
      = (allCtx.filterMap (s.runWork n)).flatMap g := by
  rw [flatMap_filterMap_elim, flatMap_filterMap_elim]
  refine List.flatMap_congr fun k _ => ?_
  have helim (x : Option PassWork) : x.elim [] g = (x.map PassWork.unwaited).elim [] g := by
    cases x with
    | none => rfl
    | some w => exact (hg w).symm
  rw [helim, h.workOf, ← helim]

theorem Pointed.stays (h : Pointed q tested ns s v) (n : Nat) (k : Fin 4) :
    ((v.workOf (fun k c cue => c.workOn v.pos.rate n k cue) k).bind fun w => w.stays)
      = (s.runWork n k).bind fun w => w.stays := by
  have hmap (x : Option PassWork) : (x.bind fun w => w.stays) = (x.map PassWork.unwaited).bind fun w => w.stays := by
    cases x <;> rfl
  rw [hmap, h.workOf, ← hmap]

end

/-- The contexts that are FREE when step 4 begins: those FREE before and those whose pass closes. -/
def State.closing (n : Nat) (s : State) : List (Fin 4) := allCtx.filter fun k => (s.ctx k).all (Ctx.closesOn s.pos.rate n)

theorem Ctx.workOn_stays (rate : Rate) (n : Nat) (k : Fin 4) (c : Ctx) (cue : Cue) :
    (c.workOn rate n k cue).stays.isNone = c.closesOn rate n := by
  unfold Ctx.workOn
  cases c.closesOn rate n <;> rfl

/-- After step 3 a context is FREE exactly where it was or its pass closes. -/
theorem State.runWork_stays {n : Nat} {s : State} (hmet : s.PassesMet) (k : Fin 4) :
    ((s.runWork n k).bind fun w => w.stays).isNone = (s.ctx k).all (Ctx.closesOn s.pos.rate n) := by
  cases hk : s.ctx k with
  | none => rw [State.runWork, State.workOf_none hk]; rfl
  | some c =>
    obtain ⟨cue, hc, -⟩ := hmet.cue k c hk
    rw [State.runWork, State.workOf_some hk (hmet.reel k c hk ▸ hc)]
    exact Ctx.workOn_stays _ _ _ _ _

/-- The play reel applied at a running edge: the pending one, where a pass was in flight and every one closes (R8). -/
def State.switchRun (n : Nat) (s : State) : Option (Fin 8) :=
  if (s.closing n).length = 4 ∧ (allCtx.all fun k => (s.ctx k).isNone) = false then s.cst.pendingPlay else none

theorem State.closing_length {n : Nat} {s : State} :
    (s.closing n).length = 4 ↔ ∀ k : Fin 4, (s.ctx k).all (Ctx.closesOn s.pos.rate n) = true := by
  refine (List.length_filter_eq_length_iff (l := allCtx)).trans ?_
  exact ⟨fun h k => h k (mem_allCtx k), fun h k _ => h k⟩

theorem State.anyActive_eq (s : State) : s.anyActive = !allCtx.all fun k => (s.ctx k).isNone := by
  rw [State.anyActive, List.not_all_eq_any_not]
  refine congrArg (List.any allCtx) (funext fun k => ?_)
  cases s.ctx k <;> rfl

section
variable {q : Nat} {tested : List Nat} {ns : List Notice} {s v t : State} {n : Nat}
  (hp : Pointed q tested ns s v) (ht : Passed (fun k c cue => c.workOn v.pos.rate n k cue) allCtx v t)
include hp ht

theorem Passed.run_ctx (k : Fin 4) : t.ctx k = (s.runWork n k).bind fun w => w.stays := by
  rw [ht.ctx, if_pos (mem_allCtx k), hp.stays]

theorem Passed.run_freeCtxs (hmet : s.PassesMet) : t.freeCtxs = s.closing n := by
  unfold State.freeCtxs State.closing
  refine List.filter_congr fun k _ => ?_
  rw [ht.run_ctx hp, State.runWork_stays hmet]

theorem Passed.run_switch (hmet : s.PassesMet) : State.switchAfter allCtx v t = s.switchRun n := by
  have hfree : t.allFree = decide ((s.closing n).length = 4) := by
    rw [Bool.eq_iff_iff, State.allFree_iff, decide_eq_true_eq, State.closing_length]
    refine forall_congr' fun k => ?_
    rw [← State.runWork_stays hmet, ht.run_ctx hp, Option.isNone_iff_eq_none]
  have hactive : (allCtx.any fun k => (v.ctx k).isSome) = s.anyActive := by
    rw [State.anyActive]
    simp only [hp.ctx]
  rw [State.switchAfter, hfree, hactive, State.anyActive_eq, State.switchRun, CueStore.pendingPlay_of_bare hp.bare]
  cases (allCtx.all fun k => (s.ctx k).isNone) <;> simp

end

end Sys2Proof.Machine
end

section
/-! A running edge as a whole, in the terms of the state that the edge finds (R85 to R102, R118). -/

namespace Sys2Proof.Machine

/-! ## The entries, as the spec says them from the state the edge finds -/

/-- The candidates of the slice of eight from position `q` on (R90, R92). -/
def State.candsOf (n q : Nat) (s : State) : List Entry :=
  if s.playReel.entriesAllowed then ((s.playReel.order.drop q).take 8).filterMap (s.entryOf n s.servedSlots) else []

/-- The candidates that enter at the edge (R93, log entry 31). -/
def State.runEnters (n q : Nat) (s : State) : List Entry :=
  if s.cst.pendingPlay.isSome then [] else (s.candsOf n q).take (s.closing n).length

/-- The candidates that are marked waited at the edge (R93, log entry 31). -/
def State.runWaits (n q : Nat) (s : State) : List Entry :=
  if s.cst.pendingPlay.isSome = true ∧ s.closing n ≠ [] then [] else (s.candsOf n q).drop (s.closing n).length

theorem State.mem_servedSlots {s : State} {slot : Nat} :
    slot ∈ s.servedSlots ↔ ∃ (k : Fin 4) (c : Ctx), s.ctx k = some c ∧ c.slot = slot := by
  unfold State.servedSlots
  rw [List.mem_filterMap]
  constructor
  · rintro ⟨k, -, h⟩
    obtain ⟨c, hc, rfl⟩ := Option.map_eq_some_iff.mp h
    exact ⟨k, c, hc, rfl⟩
  · rintro ⟨k, c, hc, rfl⟩
    exact ⟨k, mem_allCtx k, by rw [hc]; rfl⟩

/-- The slots of the slice come after those that step 2 tests. -/
theorem Pointed.untested {q : Nat} {tested : List Nat} {ns : List Notice} {s v : State} (h : Pointed q tested ns s v)
    (hn : s.playReel.order.Nodup) {slot : Nat} (hs : slot ∈ (s.playReel.order.drop q).take 8) : slot ∉ tested := by
  intro hmem
  have hdisj : List.Disjoint (s.playReel.order.take q) (s.playReel.order.drop q) := by
    refine List.disjoint_of_nodup_append ?_
    rwa [List.take_append_drop]
  exact hdisj (h.before slot hmem) (List.mem_of_mem_take hs)

/-- A candidate stands in an untested slot of the slice that no context serves. -/
theorem State.of_mem_candsOf {n q : Nat} {s : State} {x : Entry} (h : x ∈ s.candsOf n q) :
    x.1 ∈ (s.playReel.order.drop q).take 8 ∧ s.cue s.cst.playReel x.1 = some x.2.1 ∧ x.1 ∉ s.servedSlots
      ∧ candidate n x.2.1 = some x.2.2 := by
  unfold State.candsOf at h
  split at h
  · obtain ⟨slot, hslot, hx⟩ := List.mem_filterMap.mp h
    obtain ⟨rfl, hc, hs, hk⟩ := State.entryOf_some hx
    exact ⟨hslot, hc, by simpa using hs, hk⟩
  · cases h

theorem State.mem_candsOf_of_enters {n q : Nat} {s : State} {x : Entry} (h : x ∈ s.runEnters n q) : x ∈ s.candsOf n q := by
  unfold State.runEnters at h
  split at h
  · cases h
  · exact List.mem_of_mem_take h

theorem State.mem_candsOf_of_waits {n q : Nat} {s : State} {x : Entry} (h : x ∈ s.runWaits n q) : x ∈ s.candsOf n q := by
  unfold State.runWaits at h
  split at h
  · cases h
  · exact List.mem_of_mem_drop h

section
variable {q : Nat} {tested : List Nat} {ns : List Notice} {s v t : State} {n : Nat}
  (hp : Pointed q tested ns s v) (ht : Passed (fun k c cue => c.workOn v.pos.rate n k cue) allCtx v t)
include hp ht

/-- Steps 2 and 3 leave the candidates of the slice as the edge finds them. -/
theorem Passed.run_cands (hplay : t.cst.playReel = s.cst.playReel) (hn : s.playReel.order.Nodup) :
    ((s.playReel.order.drop q).take 8).filterMap (t.entryOf n s.servedSlots)
      = ((s.playReel.order.drop q).take 8).filterMap (s.entryOf n s.servedSlots) := by
  refine List.filterMap_congr fun slot hslot => ?_
  by_cases hs : slot ∈ s.servedSlots
  · have hnone (u : State) : u.entryOf n s.servedSlots slot = none := by
      simp [State.entryOf, hs]
    rw [hnone, hnone]
  · refine State.entryOf_congr hplay ?_
    have hcues := ht.cues slot fun k _ c hk e => hs (State.mem_servedSlots.mpr ⟨k, c, hp.ctx k ▸ hk, e⟩)
    rw [hp.playReel] at hcues
    rw [hcues, hp.cues, if_neg (hp.untested hn hslot)]

/-- Step 4 of R91 meets the entries as the spec says them. -/
theorem Passed.run_entries (hmet : s.PassesMet) (hn : s.playReel.order.Nodup) (hsw : s.switchRun n = none) :
    Entered s.cst.playReel n ((s.closing n).zip (s.runEnters n q)) (s.runWaits n q) t
      (t.edgeEntries n v.slice v.servedSlots) := by
  have hswitch := ht.run_switch hp hmet
  have hcst := ht.cst
  rw [hswitch, hsw] at hcst
  have hplay : t.cst.playReel = s.cst.playReel := by rw [hcst]; exact hp.playReel
  have hpend : t.cst.pendingPlay = s.cst.pendingPlay := by rw [hcst]; exact CueStore.pendingPlay_of_bare hp.bare
  have hslice : v.slice = (s.playReel.order.drop q).take 8 := by
    simp only [State.slice, hp.pointer, State.playReel, hp.playReel]
    rw [hp.order]
    rfl
  have hserved : v.servedSlots = s.servedSlots := by simp only [State.servedSlots, hp.ctx]
  have hallowed : t.playReel.entriesAllowed = s.playReel.entriesAllowed := by
    obtain ⟨done, -, hedited⟩ := ht.edited
    have hstate := hedited.state
    rw [State.playReel, hp.playReel, hp.state] at hstate
    unfold Reel.entriesAllowed
    rw [State.playReel, hplay, hstate]
  have hfree := ht.run_freeCtxs hp hmet
  have hcands := ht.run_cands hp hplay hn
  unfold State.edgeEntries
  rw [hslice, hserved, hallowed]
  cases ha : s.playReel.entriesAllowed with
  | true =>
    have hcs : s.candsOf n q = _ := if_pos ha
    have := State.serve_foldl n s.servedSlots ((s.playReel.order.drop q).take 8) t
      (hn.sublist ((List.take_sublist _ _).trans (List.drop_sublist _ _)))
    simp only [State.entersOf, State.waitsOf, hfree, hpend, hcands, hplay] at this
    simp only [State.runEnters, State.runWaits, hcs, if_true]
    exact this
  | false =>
    have hcs : s.candsOf n q = [] := if_neg (by simp [ha])
    simp only [State.runEnters, State.runWaits, hcs, List.take_nil, List.drop_nil, ite_self, List.zip_nil_right,
      Bool.false_eq_true, if_false]
    exact Entered.nil _ n t

end

end Sys2Proof.Machine
end

section
/-! All that a running edge does, from the three steps that do it (R85 to R102, R118). -/

namespace Sys2Proof.Machine

/-! ## Reels that differ in no value of a cue -/

/-- An event that edited no cue left the in-points and the out-points. -/
theorem Reel.Edited.points_eq {x y : Reel} (h : Reel.Edited [] x y) (hn : (x.cues.map Prod.fst).Nodup) :
    y.inPoints = x.inPoints ∧ y.outPoints = x.outPoints := by
  have hmap (f : CueVals → Nat) : (y.cues.map fun p => f p.2.vals) = x.cues.map fun p => f p.2.vals := by
    refine Reel.map_eq_of_lookup (fun c => f c.vals) (Reel.keys_of_labels h.labels) hn fun k => ?_
    have := congrArg (Option.map f) (h.others k List.not_mem_nil)
    rwa [Option.map_map, Option.map_map] at this
  exact ⟨hmap _, hmap _⟩

/-- It left the header and the order list too. -/
theorem Reel.Edited.header_eq {x y : Reel} (h : Reel.Edited [] x y) (hn : (x.cues.map Prod.fst).Nodup) :
    { y with cues := [] } = { x with cues := [] } := by
  obtain ⟨hin, hout⟩ := h.points_eq hn
  have hpoints := h.points
  rw [if_pos ⟨hin, hout⟩] at hpoints
  simp only [h.tag, h.state, h.orderKept hin, hpoints.1, hpoints.2, h.conform]

/-- An event that edited no cue may come before one that edits some. -/
theorem Reel.Edited.trans {done : List Nat} {x y z : Reel} (hn : (x.cues.map Prod.fst).Nodup) (h : Reel.Edited [] x y)
    (h' : Reel.Edited done y z) : Reel.Edited done x z := by
  obtain ⟨hin, hout⟩ := h.points_eq hn
  have hpoints := h.points
  rw [if_pos ⟨hin, hout⟩] at hpoints
  have hpoints' := h'.points
  rw [hin, hout, hpoints.1, hpoints.2] at hpoints'
  exact
    { labels := h'.labels.trans h.labels, tag := h'.tag.trans h.tag, state := h'.state.trans h.state
      conform := h'.conform.trans h.conform, perm := h'.perm.trans h.perm
      others := fun k hk => (h'.others k hk).trans (h.others k List.not_mem_nil)
      sorted := fun hs hd => h'.sorted (h.sorted hs hd) ((loopsDistinct_of_labels h.labels).trans hd)
      orderKept := fun hi => (h'.orderKept (hi.trans hin.symm)).trans (h.orderKept hin)
      points := hpoints' }

/-! ## The edge -/

/-- The work of steps 2 to 4 of a running edge `e` turned `s` into `t`: step 2 left the pointer `q`, tested the cues of the slots
`tested` and raised `ns`; the passes in flight, the entries and the play reel applied follow from `s`. -/
structure Ran (e : FrameEdge) (q : Nat) (tested : List Nat) (ns : List Notice) (s t : State) : Prop where
  work : PointerWork e s.pos.rate s.playReel (fun slot => (s.cue s.cst.playReel slot).any fun c => c.waited) s.psc.pointer
    s.psc.refind q tested ns
  outer : t.outer = s.outer
  cst : t.cst = { s.cst with
    reels := t.cst.reels
    playReel := (s.switchRun e.n).getD s.cst.playReel
    pendingPlay := if (s.switchRun e.n).isSome then none else s.cst.pendingPlay }
  raised : t.raised = s.raised ++ (allCtx.filterMap (s.runWork e.n)).flatMap (fun w => w.events)
    ++ ((s.closing e.n).zip (s.runEnters e.n q)).flatMap (Entry.handed s.cst.playReel e.n)
  pointer : t.psc.pointer = if (s.switchRun e.n).isSome then none else some q
  refind : t.psc.refind = (s.movedTo t || (s.switchRun e.n).isSome)
  ctxWork : ∀ k, k ∉ s.closing e.n → t.ctx k = (s.runWork e.n k).bind fun w => w.stays
  ctxFree : ∀ (i : Nat) (k : Fin 4), (s.closing e.n)[i]? = some k →
    t.ctx k = ((s.runEnters e.n q)[i]?).map fun x => (x.work s.cst.playReel e.n k).ctx
  reels : ∀ r, r ≠ s.cst.playReel → t.reel r = s.reel r
  cueAt : ∀ k c cue, s.ctx k = some c → s.cue s.cst.playReel c.slot = some cue → t.cue s.cst.playReel c.slot
    = some (c.workOn s.pos.rate e.n k (if c.slot ∈ tested then cue.unwaited else cue)).cue
  cueEnters : ∀ x ∈ s.runEnters e.n q, ∃ k, t.cue s.cst.playReel x.1 = some (x.work s.cst.playReel e.n k).cue
  cueWaits : ∀ x ∈ s.runWaits e.n q, t.cue s.cst.playReel x.1 = some { x.2.1 with waited := true }
  cues : ∀ slot, slot ∉ s.servedSlots → slot ∉ (s.runEnters e.n q).map Prod.fst → slot ∉ (s.runWaits e.n q).map Prod.fst →
    t.cue s.cst.playReel slot
      = if slot ∈ tested then (s.cue s.cst.playReel slot).map Cue.unwaited else s.cue s.cst.playReel slot
  edited : ∃ done : List Nat, (∀ slot ∈ done, slot ∈ s.servedSlots) ∧ Reel.Edited done s.playReel (t.reel s.cst.playReel)
  untested : ∀ x ∈ s.candsOf e.n q, x.1 ∉ tested
  told : Told (ns ++ (allCtx.filterMap (s.runWork e.n)).flatMap (fun w => w.notices)
    ++ (s.switchRun e.n).toList.map .reelSwitched
    ++ ((s.closing e.n).zip (s.runEnters e.n q)).flatMap (Entry.told s.cst.playReel e.n)) s t
  first : s.lnk.roomFor ns.length → (s.lnk.noticesHeld ++ ns) <+: t.lnk.noticesHeld

/-- Where a play reel is applied, nothing enters and nothing is marked waited (R8). -/
theorem State.switchRun_some {n : Nat} {s : State} {r : Fin 8} (h : s.switchRun n = some r) :
    s.cst.pendingPlay = some r ∧ (s.closing n).length = 4 ∧ (allCtx.all fun k => (s.ctx k).isNone) = false := by
  unfold State.switchRun at h
  split at h
  · next hc => exact ⟨h, hc⟩
  · cases h

theorem State.runEnters_switch {n : Nat} {s : State} {r : Fin 8} (h : s.switchRun n = some r) (q : Nat) :
    s.runEnters n q = [] ∧ s.runWaits n q = [] := by
  obtain ⟨hpend, hlen, -⟩ := State.switchRun_some h
  have hne : s.closing n ≠ [] := fun e => by simp [e] at hlen
  simp [State.runEnters, State.runWaits, hpend, hne]

theorem Passed.run_switched {q : Nat} {tested : List Nat} {ns : List Notice} {s v t : State} {n : Nat}
    (hp : Pointed q tested ns s v) (ht : Passed (fun k c cue => c.workOn v.pos.rate n k cue) allCtx v t) (hmet : s.PassesMet) :
    switched v t = (s.switchRun n).isSome := by
  have hcst := ht.cst
  rw [ht.run_switch hp hmet] at hcst
  have hpend := CueStore.pendingPlay_of_bare hp.bare
  unfold switched
  rw [hcst, hpend]
  cases hsw : s.switchRun n with
  | some r =>
    obtain ⟨hr, -⟩ := State.switchRun_some hsw
    rw [hr]; rfl
  | none => cases s.cst.pendingPlay <;> rfl

/-- The three steps of a running edge. -/
theorem State.edgeWork_steps {e : FrameEdge} (he : runningEdge e = true) {s : State} (hs : s.cst.lawful = true)
    (hmet : s.PassesMet) : ∃ q tested ns v t u, Pointed q tested ns s v
      ∧ PointerWork e s.pos.rate s.playReel (fun slot => (s.cue s.cst.playReel slot).any fun c => c.waited) s.psc.pointer
          s.psc.refind q tested ns
      ∧ Passed (fun k c cue => c.workOn v.pos.rate e.n k cue) allCtx v t
      ∧ Entered s.cst.playReel e.n ((s.closing e.n).zip (s.runEnters e.n q)) (s.runWaits e.n q) t u
      ∧ s.edgeWork e = if (s.switchRun e.n).isSome then u.setPointer none else u := by
  have hreel : s.playReel.lawful = true := State.reel_lawful hs _
  have hn := Reel.order_nodup hreel
  obtain ⟨q, tested, ns, hp, hwork⟩ := s.pointerWork_pointed e
    (fun slot => (s.cue s.cst.playReel slot).any fun c => c.waited) hn fun slot c hc => by simp [hc]
  have ht := State.edgePhases_passed e.n (hp.lawful hreel) (hp.passesMet hmet)
  have hswitched := ht.run_switched hp hmet
  have hrun : s.edgeWork e = if (s.switchRun e.n).isSome then ((s.pointerWork e).edgePhases e.n).setPointer none
      else ((s.pointerWork e).edgePhases e.n).edgeEntries e.n (s.pointerWork e).slice (s.pointerWork e).servedSlots := by
    rw [State.edgeWork_running he, State.edgeRuns, hswitched]
  cases hsw : s.switchRun e.n with
  | some r =>
    obtain ⟨henters, hwaits⟩ := State.runEnters_switch hsw q
    refine ⟨q, tested, ns, _, _, (s.pointerWork e).edgePhases e.n, hp, hwork, ht, ?_, ?_⟩
    · rw [henters, hwaits, List.zip_nil_right]
      exact Entered.nil _ _ _
    · simp only [hrun, hsw, Option.isSome_some, if_true]
  | none =>
    refine ⟨q, tested, ns, _, _, _, hp, hwork, ht, ht.run_entries hp hmet hn hsw, ?_⟩
    simp only [hrun, hsw, Option.isSome_none, Bool.false_eq_true, if_false]

end Sys2Proof.Machine
end

section
/-! The account of a running edge, proved from its three steps. -/

namespace Sys2Proof.Machine

section
variable {e : FrameEdge} {q : Nat} {tested : List Nat} {ns : List Notice} {s v t u : State}
  (hp : Pointed q tested ns s v)
  (ht : Passed (fun k c cue => c.workOn v.pos.rate e.n k cue) allCtx v t)
  (hu : Entered s.cst.playReel e.n ((s.closing e.n).zip (s.runEnters e.n q)) (s.runWaits e.n q) t u)

include hp ht hu

theorem Entered.run_cst (hmet : s.PassesMet) : u.cst = { s.cst with
    reels := u.cst.reels
    playReel := (s.switchRun e.n).getD s.cst.playReel
    pendingPlay := if (s.switchRun e.n).isSome then none else s.cst.pendingPlay } := by
  have h1 := CueStore.eq_of_bare hu.bare
  have h2 := ht.cst
  have h3 := CueStore.eq_of_bare hp.bare
  rw [ht.run_switch hp hmet] at h2
  rw [h1, h2, h3]

theorem Entered.run_raised : u.raised = s.raised ++ (allCtx.filterMap (s.runWork e.n)).flatMap (fun w => w.events)
    ++ ((s.closing e.n).zip (s.runEnters e.n q)).flatMap (Entry.handed s.cst.playReel e.n) := by
  rw [hu.raised, ht.raised, hp.works_flatMap e.n (fun w => w.events) fun w => rfl, hp.raised]

theorem Entered.run_told (hmet : s.PassesMet) : Told (ns ++ (allCtx.filterMap (s.runWork e.n)).flatMap (fun w => w.notices)
    ++ (s.switchRun e.n).toList.map .reelSwitched
    ++ ((s.closing e.n).zip (s.runEnters e.n q)).flatMap (Entry.told s.cst.playReel e.n)) s u := by
  have h2 := ht.told
  rw [ht.run_switch hp hmet, hp.works_flatMap e.n (fun w => w.notices) fun w => rfl] at h2
  have := (hp.told.trans h2).trans hu.told
  rwa [← List.append_assoc] at this

theorem Entered.run_first (room : s.lnk.roomFor ns.length) : (s.lnk.noticesHeld ++ ns) <+: u.lnk.noticesHeld := by
  rw [← hp.told.held_append room]
  exact ht.told.held.trans hu.told.held

theorem Entered.run_ctxWork {k : Fin 4} (hk : k ∉ s.closing e.n) : u.ctx k = (s.runWork e.n k).bind fun w => w.stays := by
  rw [hu.ctxs k fun hmem => ?_, ht.run_ctx hp]
  obtain ⟨p, hpair, rfl⟩ := List.mem_map.mp hmem
  exact hk (List.of_mem_zip hpair).1

theorem Entered.run_ctxFree (hmet : s.PassesMet) {i : Nat} {k : Fin 4} (hk : (s.closing e.n)[i]? = some k) :
    u.ctx k = ((s.runEnters e.n q)[i]?).map fun x => (x.work s.cst.playReel e.n k).ctx := by
  have hfree := ht.run_freeCtxs hp hmet
  have hn : (s.closing e.n).Nodup := hfree ▸ t.freeCtxs_nodup
  cases hx : (s.runEnters e.n q)[i]? with
  | some x =>
    have hpair : (k, x) ∈ (s.closing e.n).zip (s.runEnters e.n q) :=
      List.mem_of_getElem? (List.getElem?_zip_eq_some.mpr ⟨hk, hx⟩)
    rw [hu.ctxIn _ hpair]; rfl
  | none =>
    have hnotin : k ∉ ((s.closing e.n).zip (s.runEnters e.n q)).map Prod.fst := by
      intro hmem
      obtain ⟨p, hpair, rfl⟩ := List.mem_map.mp hmem
      obtain ⟨j, hj⟩ := List.mem_iff_getElem?.mp hpair
      obtain ⟨hj1, hj2⟩ := List.getElem?_zip_eq_some.mp hj
      have hlt : i < (s.closing e.n).length := (List.getElem?_eq_some_iff.mp hk).1
      obtain rfl := (List.getElem?_inj hlt hn).mp (hk.trans hj1.symm)
      rw [hx] at hj2
      cases hj2
    rw [hu.ctxs k hnotin]
    exact State.mem_freeCtxs.mp (hfree ▸ List.mem_of_getElem? hk)

theorem Entered.run_reels {r : Fin 8} (hr : r ≠ s.cst.playReel) : u.reel r = s.reel r := by
  rw [hu.reels r hr, ht.reels r (hp.playReel.symm ▸ hr), hp.reels r hr]

omit hp ht hu in
/-- Neither an entry nor a candidate marked waited stands in a slot that a context serves. -/
theorem State.served_not_cand {n : Nat} {slot : Nat} (h : slot ∈ s.servedSlots) :
    slot ∉ (s.runEnters n q).map Prod.fst ∧ slot ∉ (s.runWaits n q).map Prod.fst := by
  constructor <;> intro hmem <;> obtain ⟨x, hx, rfl⟩ := List.mem_map.mp hmem
  · exact (State.of_mem_candsOf (State.mem_candsOf_of_enters hx)).2.2.1 h
  · exact (State.of_mem_candsOf (State.mem_candsOf_of_waits hx)).2.2.1 h

omit hp ht hu in
theorem State.pairs_slots {n : Nat} {slot : Nat} (h : slot ∉ (s.runEnters n q).map Prod.fst) :
    slot ∉ ((s.closing n).zip (s.runEnters n q)).map fun p => p.2.1 := by
  intro hmem
  obtain ⟨p, hpair, rfl⟩ := List.mem_map.mp hmem
  exact h (List.mem_map.mpr ⟨p.2, (List.of_mem_zip hpair).2, rfl⟩)

theorem Entered.run_cueAt {k : Fin 4} {c : Ctx} {cue : Cue} (hk : s.ctx k = some c)
    (hc : s.cue s.cst.playReel c.slot = some cue) : u.cue s.cst.playReel c.slot
      = some (c.workOn s.pos.rate e.n k (if c.slot ∈ tested then cue.unwaited else cue)).cue := by
  obtain ⟨henters, hwaits⟩ := State.served_not_cand (q := q) (n := e.n) (State.mem_servedSlots.mpr ⟨k, c, hk, rfl⟩)
  rw [hu.cues c.slot (State.pairs_slots henters) hwaits]
  have := ht.cueAt k (mem_allCtx k) c _ (hp.ctx k ▸ hk) (hp.playReel.symm ▸ hp.cue_cases hc)
  rw [hp.playReel, State.rate_of_outer hp.outer] at this
  exact this

theorem Entered.run_cues {slot : Nat} (hserved : slot ∉ s.servedSlots) (henters : slot ∉ (s.runEnters e.n q).map Prod.fst)
    (hwaits : slot ∉ (s.runWaits e.n q).map Prod.fst) : u.cue s.cst.playReel slot
      = if slot ∈ tested then (s.cue s.cst.playReel slot).map Cue.unwaited else s.cue s.cst.playReel slot := by
  rw [hu.cues slot (State.pairs_slots henters) hwaits]
  have := ht.cues slot fun k _ c hk hslot => hserved (State.mem_servedSlots.mpr ⟨k, c, hp.ctx k ▸ hk, hslot⟩)
  rw [hp.playReel] at this
  rw [this, hp.cues]

omit hp ht in
theorem Entered.run_cueEnters {x : Entry} (hx : x ∈ s.runEnters e.n q) :
    ∃ k, u.cue s.cst.playReel x.1 = some (x.work s.cst.playReel e.n k).cue := by
  have hlen : (s.runEnters e.n q).length ≤ (s.closing e.n).length := by
    unfold State.runEnters
    split
    · exact Nat.zero_le _
    · exact List.length_take_le _ _
  obtain ⟨i, hi⟩ := List.mem_iff_getElem?.mp hx
  have hlt : i < (s.closing e.n).length := (List.getElem?_eq_some_iff.mp hi).1.trans_le hlen
  refine ⟨(s.closing e.n)[i], hu.cueIn ((s.closing e.n)[i], x) (List.mem_of_getElem? (i := i) ?_)⟩
  exact List.getElem?_zip_eq_some.mpr ⟨List.getElem?_eq_getElem hlt, hi⟩

theorem Entered.run_edited (hs : s.cst.lawful = true) : ∃ done : List Nat, (∀ slot ∈ done, slot ∈ s.servedSlots)
    ∧ Reel.Edited done s.playReel (u.reel s.cst.playReel)
    ∧ (u.reel s.cst.playReel).inPoints = (t.reel s.cst.playReel).inPoints := by
  have hkeys := Reel.keys_nodup (State.reel_lawful hs s.cst.playReel)
  obtain ⟨done, hdone, hedited⟩ := ht.edited
  have hfirst : Reel.Edited [] s.playReel v.playReel := by
    rw [State.playReel, State.playReel, hp.playReel]
    exact hp.edited [] _ (Reel.Edited.refl _)
  rw [hp.playReel] at hedited
  have hboth := hfirst.trans hkeys hedited
  refine ⟨done, fun slot hslot => ?_, hu.edited done _ hboth, ?_⟩
  · obtain ⟨k, -, c, hk, he⟩ := hdone slot hslot
    exact State.mem_servedSlots.mpr ⟨k, c, hp.ctx k ▸ hk, he⟩
  · have htkeys : ((t.reel s.cst.playReel).cues.map Prod.fst).Nodup := by
      rw [Reel.keys_of_labels hboth.labels]; exact hkeys
    exact ((hu.edited [] _ (Reel.Edited.refl _)).points_eq htkeys).1

theorem Entered.run_refind (hs : s.cst.lawful = true) (hmet : s.PassesMet) : u.psc.refind = (s.movedTo u || (s.switchRun e.n).isSome) := by
  obtain ⟨-, -, -, hin⟩ := hu.run_edited hp ht hs
  have hkeys := Reel.keys_nodup (State.reel_lawful hs s.cst.playReel)
  have hv := hp.inPoints hkeys
  have h2 := ht.refind
  rw [ht.run_switch hp hmet, hp.refind, State.playReel, hp.playReel, hv, Bool.false_or] at h2
  rw [hu.refind, h2, State.movedTo, hin]

end

/-- The work of a running edge (R85 to R102). -/
theorem State.edgeWork_ran {e : FrameEdge} (he : runningEdge e = true) {s : State} (hs : s.cst.lawful = true)
    (hmet : s.PassesMet) : ∃ q tested ns, Ran e q tested ns s (s.edgeWork e) := by
  obtain ⟨q, tested, ns, v, t, u, hp, hwork, ht, hu, hedge⟩ := State.edgeWork_steps he hs hmet
  obtain ⟨done, hdone, hedited, -⟩ := hu.run_edited hp ht hs
  have hcst := hu.run_cst hp ht hmet
  have hraised := hu.run_raised hp ht
  have hrefind := hu.run_refind hp ht hs hmet
  have hfirst := hu.run_first hp ht
  have hu' : Ran e q tested ns s (u.setPointer (if (s.switchRun e.n).isSome then none else some q)) :=
    { work := hwork, outer := hu.outer.trans (ht.outer.trans hp.outer), cst := hcst
      raised := hraised, pointer := rfl, refind := hrefind
      ctxWork := fun k hk => hu.run_ctxWork hp ht hk
      ctxFree := fun i k hk => hu.run_ctxFree hp ht hmet hk
      reels := fun r hr => hu.run_reels hp ht hr
      cueAt := fun k c cue hk hc => hu.run_cueAt hp ht hk hc
      cueEnters := fun x hx => hu.run_cueEnters hx
      cueWaits := hu.cueWaits
      cues := fun slot h1 h2 h3 => hu.run_cues hp ht h1 h2 h3
      edited := ⟨done, hdone, hedited⟩
      untested := fun x hx => hp.untested (Reel.order_nodup (State.reel_lawful hs _)) (State.of_mem_candsOf hx).1
      told := by
        have hset : Told [] u (u.setPointer (if (s.switchRun e.n).isSome then none else some q)) := Told.of_lnk rfl rfl rfl
        have := (hu.run_told hp ht hmet).trans hset
        rwa [List.append_nil] at this
      first := hfirst }
  refine ⟨q, tested, ns, ?_⟩
  rw [hedge]
  cases hsw : (s.switchRun e.n).isSome with
  | true => rw [hsw] at hu'; exact hu'
  | false =>
    have hpointer : u.psc.pointer = some q := hu.pointer.trans (ht.pointer.trans hp.pointer)
    have hsame : u.setPointer (some q) = u := by
      unfold State.setPointer
      rw [← hpointer]
    rw [hsw] at hu'
    simp only [Bool.false_eq_true, if_false, hsame] at hu' ⊢
    exact hu'

end Sys2Proof.Machine
end

section
/-! The entries in the words of the spec, and the obligations on a running edge. -/

namespace Sys2Proof.Machine

/-! ## One entry -/

/-- Whether an entry on frame `n` has staging work to do at once (R97). -/
def Entry.staging (n : Nat) (x : Entry) : Bool := decide (n + 1 = x.2.1.vals.inPt ∧ x.2.2 = .record)

/-- Whether a cue has room for a take, in the words of R97 and R149. -/
def Cue.roomLeft (c : Cue) : Bool := decide (c.nextTake ≠ 100) && !(decide (6 ≤ c.takes.length) && c.takes.all fun x => x.circled)

theorem Cue.hasRoom_eq {c : Cue} (h : c.nextTake ≤ 100) : c.hasRoom = c.roomLeft := by
  have : decide (c.nextTake < 100) = decide (c.nextTake ≠ 100) := decide_eq_decide.mpr (by omega)
  rw [Cue.hasRoom, this]
  rfl

/-- Whether an entry reserves its take at once (R97). -/
def Entry.reserves (n : Nat) (x : Entry) : Bool := x.staging n && x.2.1.roomLeft

/-- Whether an entry turns REHEARSE at once for want of room (R97). -/
def Entry.full (n : Nat) (x : Entry) : Bool := x.staging n && !x.2.1.roomLeft

/-- The work of an entry, by whether it stages and whether there is room. -/
theorem Entry.work_eq (play : Fin 8) (n : Nat) (k : Fin 4) {x : Entry} (h : x.2.1.nextTake ≤ 100) : x.work play n k =
    { ctx := { x.ctx play n with
        kind := if x.full n then .rehearse else x.2.2
        take := if x.reserves n then some x.2.1.nextTake else none }
      cue := { x.cue with
        takes := if x.reserves n then (x.2.1.addTake (decide (x.2.1.vals.entry < n))).takes else x.2.1.takes
        nextTake := if x.reserves n then x.2.1.nextTake + 1 else x.2.1.nextTake }
      notices := if x.full n then [.takesFull x.2.1.loop] else []
      events := if x.reserves n then
          [.stageRequest { ctx := k, loop := x.2.1.loop, action := .punchIn, lines := x.2.1.vals.lines,
                           target := x.2.1.vals.inPt }]
        else [] } := by
  have hroom : x.cue.hasRoom = x.2.1.roomLeft := Cue.hasRoom_eq h
  unfold Entry.work Entry.reserves Entry.full Entry.staging Ctx.reserveWork
  rw [hroom]
  by_cases hs : n + 1 = x.2.1.vals.inPt ∧ x.2.2 = .record
  · rw [if_pos hs, decide_eq_true hs]
    cases x.2.1.roomLeft <;> rfl
  · rw [if_neg hs, decide_eq_false hs]
    rfl

/-! ## The candidates -/

/-- A cue that a context serves is PASSING, so no candidate. -/
theorem State.entryOf_eq {n : Nat} {s : State} (hmet : s.PassesMet) (slot : Nat) : s.entryOf n s.servedSlots slot =
    (s.cue s.cst.playReel slot).bind fun c => (candidate n c).map fun kind => (slot, c, kind) := by
  unfold State.entryOf
  cases hc : s.cue s.cst.playReel slot with
  | none => rfl
  | some c =>
    rw [Option.bind_some, Option.bind_some]
    split
    · next hserved =>
      obtain ⟨k, d, hk, rfl⟩ := State.mem_servedSlots.mp (by simpa using hserved)
      obtain ⟨cue, hcue, hpassing⟩ := hmet.cue k d hk
      obtain rfl := Option.some.inj (hc.symm.trans hcue)
      have : candidate n c = none := by
        unfold candidate
        cases hstate : c.state with
        | passing kind => rfl
        | ready | armed kind | done => simp [hstate, CueState.isPassing] at hpassing
      rw [this]; rfl
    · rfl

theorem Reel.entriesAllowed_eq (r : Reel) : r.entriesAllowed = !decide (r.state = .conforming ∨ r.state = .partly) := by
  unfold Reel.entriesAllowed
  cases r.state <;> rfl

/-- The cue in a slot as a candidate at frame `n`, in the words of R92. -/
def Cue.asEntry (n slot : Nat) (c : Cue) : Option Entry :=
  match c.state with
  | .armed kind => if c.conformPending = false ∧ c.vals.entry ≤ n ∧ n < c.vals.inPt then some (slot, c, kind) else none
  | .ready | .passing _ | .done => none

theorem Cue.asEntry_eq (n slot : Nat) (c : Cue) :
    ((candidate n c).map fun kind => ((slot, c, kind) : Entry)) = c.asEntry n slot := by
  unfold candidate Cue.asEntry
  obtain ⟨loop, vals, state, protect, waited, conformPending, nextTake, takes, pending⟩ := c
  cases state with
  | ready | passing kind | done => rfl
  | armed kind =>
    dsimp only
    have hcond : (!conformPending && decide (vals.entry ≤ n) && decide (n < vals.inPt))
        = decide (conformPending = false ∧ vals.entry ≤ n ∧ n < vals.inPt) := by
      cases conformPending <;> simp
    rw [hcond]
    by_cases hc : conformPending = false ∧ vals.entry ≤ n ∧ n < vals.inPt
    · rw [if_pos hc, decide_eq_true hc]; rfl
    · rw [if_neg hc, decide_eq_false hc]; rfl

theorem State.candsOf_eq {n q : Nat} {s : State} (hmet : s.PassesMet) : s.candsOf n q =
    if decide (s.playReel.state = .conforming ∨ s.playReel.state = .partly) then []
    else ((s.playReel.order.drop q).take 8).filterMap fun slot => (s.cue s.cst.playReel slot).bind fun c =>
      c.asEntry n slot := by
  have hentry : s.entryOf n s.servedSlots = fun slot => (s.cue s.cst.playReel slot).bind fun c => c.asEntry n slot := by
    funext slot
    rw [State.entryOf_eq hmet]
    exact congrArg _ (funext (Cue.asEntry_eq n slot))
  unfold State.candsOf
  rw [Reel.entriesAllowed_eq, hentry]
  cases decide (s.playReel.state = .conforming ∨ s.playReel.state = .partly) <;> rfl

theorem State.nextTake_le {s : State} (hs : s.cst.lawful = true) {n q : Nat} {x : Entry} (h : x ∈ s.candsOf n q) :
    x.2.1.nextTake ≤ 100 := by
  have htakes := (Reel.lawful_cue (State.reel_lawful hs _) (State.of_mem_candsOf h).2.1).2
  simp only [Cue.takesLawful, Bool.and_eq_true, decide_eq_true_eq] at htakes
  exact htakes.1.1.2

/-! ## What follows from the account of the edge -/

theorem State.switchRun_free {n : Nat} {s : State} (h : (allCtx.all fun k => (s.ctx k).isNone) = true) :
    s.switchRun n = none := by
  simp [State.switchRun, h]

/-- With every context FREE no cue is edited. -/
theorem Ran.header {e : FrameEdge} {q : Nat} {tested : List Nat} {ns : List Notice} {s t : State} (h : Ran e q tested ns s t)
    (hs : s.cst.lawful = true) (hfree : (allCtx.all fun k => (s.ctx k).isNone) = true) :
    { t.reel s.cst.playReel with cues := [] } = { s.reel s.cst.playReel with cues := [] } ∧ s.movedTo t = false := by
  obtain ⟨done, hdone, hedited⟩ := h.edited
  have hnone (slot : Nat) : slot ∉ s.servedSlots := by
    intro hmem
    obtain ⟨k, c, hk, -⟩ := State.mem_servedSlots.mp hmem
    have := List.all_eq_true.mp hfree k (mem_allCtx k)
    rw [hk] at this
    cases this
  obtain rfl : done = [] := List.eq_nil_iff_forall_not_mem.mpr fun slot hslot => hnone slot (hdone slot hslot)
  have hkeys := Reel.keys_nodup (State.reel_lawful hs s.cst.playReel)
  exact ⟨hedited.header_eq hkeys, by rw [State.movedTo, (hedited.points_eq hkeys).1]; simp⟩

end Sys2Proof.Machine

open Sys2Proof Sys2Proof.Machine in
/-- Settles O42: `Ran` is the account of the edge, the entries read in the words of the spec. -/
theorem entriesFollowTheSlice : Obligations.EntriesFollowTheSlice := by
  intro e s hs hlaw he
  have hmet := State.passesMet hlaw
  obtain ⟨q, tested, ns, h⟩ := State.edgeWork_ran he (s := s.taken (.pscFrameEdge e)) hs ⟨hmet.reel, hmet.cue, hmet.distinct⟩
  refine ⟨_, q, tested, ns, rfl, h.work, ?_⟩
  intro play n works frees allFree switch barred pending entry candidate cands enters waits staging room reserves newTake
    takes handed told events lanes all
  have hcands : cands = s.candsOf n q := (State.candsOf_eq hmet).symm
  have henters : enters = s.runEnters n q := by
    simp only [enters, hcands]; rfl
  have hwaits : waits = s.runWaits n q := by
    simp only [waits, hcands]; rfl
  have hle : ∀ x ∈ enters, x.2.1.nextTake ≤ 100 := fun x hx =>
    State.nextTake_le hs (State.mem_candsOf_of_enters (henters ▸ hx))
  have hpairs : ∀ p ∈ frees.zip enters, p.2.2.1.nextTake ≤ 100 := fun p hp => hle _ (List.of_mem_zip hp).2
  have hhanded : (frees.zip enters).flatMap (Entry.handed play n) = (frees.zip enters).flatMap handed :=
    List.flatMap_congr fun p hp => by
      rw [Entry.handed, Entry.work_eq play n p.1 (hpairs p hp)]; rfl
  have htold : (frees.zip enters).flatMap (Entry.told play n) = (frees.zip enters).flatMap told :=
    List.flatMap_congr fun p hp => by
      rw [Entry.told, Entry.work_eq play n p.1 (hpairs p hp)]; rfl
  refine ⟨fun i k hk => ?ctxs, fun x hx => ?enters, fun x hx => ?waits, fun slot hserved hout => ?cues, h.reels, ?apart,
    fun room => ?noticed, fun hfree => ?idle⟩
  case ctxs =>
    refine (h.ctxFree i k hk).trans ?_
    show ((s.runEnters n q)[i]?).map _ = _
    rw [← henters]
    cases hx : enters[i]? with
    | none => rfl
    | some x =>
      rw [Option.map_some, Option.map_some]
      exact congrArg some (congrArg RecordWork.ctx (Entry.work_eq play n k (hle x (List.mem_of_getElem? hx))))
  case enters =>
    obtain ⟨k, hk⟩ := h.cueEnters x (henters ▸ hx)
    exact hk.trans (congrArg some (congrArg RecordWork.cue (Entry.work_eq play n k (hle x hx))))
  case waits => exact h.cueWaits x (hwaits ▸ hx)
  case cues =>
    have hnot (xs : List Entry) (hsub : ∀ x ∈ xs, x ∈ enters ++ waits) : slot ∉ xs.map Prod.fst := by
      intro hmem
      obtain ⟨x, hx, he⟩ := List.mem_map.mp hmem
      exact hout x (hsub x hx) he
    refine (h.cues slot (fun hmem => ?_) (hnot _ fun x hx => ?_) (hnot _ fun x hx => ?_)).trans ?_
    · obtain ⟨k, c, hk, hc⟩ := State.mem_servedSlots.mp hmem
      exact hserved k c hk hc
    · exact List.mem_append_left _ (henters ▸ hx)
    · exact List.mem_append_right _ (hwaits ▸ hx)
    · show (if slot ∈ tested then (s.cue play slot).map Cue.unwaited else s.cue play slot) = _
      cases s.cue play slot with
      | none => split <;> rfl
      | some c =>
        by_cases ht : slot ∈ tested <;> simp [ht, Cue.unwaited]
  case apart =>
    refine (State.apart_of_outer (s := s) (t := State.post _ _) h.outer).trans ?_
    refine State.apart_ext rfl rfl h.cst rfl rfl rfl rfl rfl rfl rfl ?_
    show _ ++ _ = _
    rw [h.raised]
    show s.raised.erase _ ++ _ ++ ((s.closing n).zip (s.runEnters n q)).flatMap (Entry.handed play n) ++ _ = _
    rw [← henters]
    rw [show s.closing n = frees from rfl, hhanded, List.append_assoc (s.raised.erase _)]
    rfl
  case noticed =>
    have hall : ns ++ works.flatMap (fun w => w.notices) ++ switch.toList.map .reelSwitched
        ++ (frees.zip (s.runEnters n q)).flatMap (Entry.told play n) = all := by
      rw [← henters, htold]
    rw [← hall] at room ⊢
    exact h.told.noticed room
  case idle =>
    obtain ⟨hheader, hmoved⟩ := h.header hs hfree
    have hsw : (s.taken (.pscFrameEdge e)).switchRun e.n = none := State.switchRun_free hfree
    have hpointer := h.pointer
    have hrefind := h.refind
    rw [hsw] at hpointer hrefind
    exact ⟨hpointer, hrefind.trans (by rw [hmoved]; rfl), hheader⟩
end

section
/-! The passes in flight and the pointer at an edge. -/

namespace Sys2Proof.Machine

theorem sublist_flatMap_of_mem {α β : Type} (f : α → List β) {l : List α} {a : α} (h : a ∈ l) : (f a).Sublist (l.flatMap f) := by
  obtain ⟨l₁, l₂, rfl⟩ := List.append_of_mem h
  rw [List.flatMap_append, List.flatMap_cons]
  exact (List.sublist_append_left _ _).trans (List.sublist_append_right _ _)

/-- The context of an entry serves the slot of the candidate. -/
theorem Entry.work_slot (play : Fin 8) (n : Nat) (k : Fin 4) (x : Entry) : (x.work play n k).ctx.slot = x.1 := by
  unfold Entry.work Ctx.reserveWork
  split
  · split <;> rfl
  · rfl

theorem State.mem_closing {n : Nat} {s : State} {k : Fin 4} :
    k ∈ s.closing n ↔ (s.ctx k).all (Ctx.closesOn s.pos.rate n) = true := by
  simp [State.closing, mem_allCtx k]

section
variable {e : FrameEdge} {q : Nat} {tested : List Nat} {ns : List Notice} {s t : State} {k : Fin 4} {c : Ctx} {cue : Cue}
  (h : Ran e q tested ns s t)
include h

theorem Ran.playReel : t.cst.playReel = (s.switchRun e.n).getD s.cst.playReel := by rw [h.cst]

theorem Ran.pendingPlay : t.cst.pendingPlay = if (s.switchRun e.n).isSome then none else s.cst.pendingPlay := by
  rw [h.cst]

/-- Where no notice was discarded, the notices the link holds keep the order of those raised. -/
theorem Ran.notices_sublist (hover : t.lnk.overrun = false) {l : List Notice}
    (hl : l.Sublist (ns ++ (allCtx.filterMap (s.runWork e.n)).flatMap (fun w => w.notices)
      ++ (s.switchRun e.n).toList.map .reelSwitched
      ++ ((s.closing e.n).zip (s.runEnters e.n q)).flatMap (Entry.told s.cst.playReel e.n))) :
    l.Sublist t.lnk.noticesHeld := by
  rw [(h.told.noticed (.inr hover)).1]
  exact hl.trans (List.sublist_append_right _ _)

/-- The cue of a pass after the edge. -/
theorem Ran.cue_unwaited (hk : s.ctx k = some c) (hc : s.cue s.cst.playReel c.slot = some cue) :
    (t.cue s.cst.playReel c.slot).map Cue.unwaited = some (c.workOn s.pos.rate e.n k cue).cue.unwaited := by
  rw [h.cueAt k c cue hk hc, Option.map_some]
  congr 1
  split
  · rw [Ctx.workOn_unwaited]; rfl
  · rfl

omit h in
/-- A pass that does not close keeps the play reel. -/
theorem State.switchRun_stays (hk : s.ctx k = some c) (hcl : c.closesOn s.pos.rate e.n = false) : s.switchRun e.n = none := by
  have hlen : ¬ (s.closing e.n).length = 4 := by
    rw [State.closing_length]
    intro hall
    have := hall k
    rw [hk, Option.all_some, hcl] at this
    cases this
  simp [State.switchRun, hlen]

/-- A context whose pass closed serves another cue, if any. -/
theorem Ran.ctx_closed (hk : s.ctx k = some c) (hcl : c.closesOn s.pos.rate e.n = true) {d : Ctx} (hd : t.ctx k = some d) :
    d.slot ≠ c.slot := by
  obtain ⟨i, hi⟩ := List.mem_iff_getElem?.mp (State.mem_closing (n := e.n) (s := s) (k := k).mpr (by rw [hk]; exact hcl))
  rw [h.ctxFree i k hi] at hd
  obtain ⟨x, hx, rfl⟩ := Option.map_eq_some_iff.mp hd
  rw [Entry.work_slot]
  intro hslot
  refine (State.of_mem_candsOf (State.mem_candsOf_of_enters (List.mem_of_getElem? hx))).2.2.1 ?_
  exact State.mem_servedSlots.mpr ⟨k, c, hk, hslot.symm⟩

/-- Where every pass closes, a pending play reel is applied. -/
theorem Ran.switch_some (hk : s.ctx k = some c)
    (hall : ∀ (j : Fin 4) (d : Ctx), s.ctx j = some d → d.closesOn s.pos.rate e.n = true) {r : Fin 8}
    (hr : s.cst.pendingPlay = some r) : s.switchRun e.n = some r ∧ ∀ j : Fin 4, t.ctx j = none := by
  have hclosing : ∀ j : Fin 4, (s.ctx j).all (Ctx.closesOn s.pos.rate e.n) = true := by
    intro j
    cases hj : s.ctx j with
    | none => rfl
    | some d => exact hall j d hj
  have hactive : (allCtx.all fun k => (s.ctx k).isNone) = false := by
    rw [List.all_eq_false]
    exact ⟨k, mem_allCtx k, by simp [hk]⟩
  have hsw : s.switchRun e.n = some r := by
    rw [State.switchRun, if_pos ⟨State.closing_length.mpr hclosing, hactive⟩, hr]
  refine ⟨hsw, fun j => ?_⟩
  obtain ⟨i, hi⟩ := List.mem_iff_getElem?.mp (State.mem_closing.mpr (hclosing j))
  rw [h.ctxFree i j hi, (State.runEnters_switch hsw q).1]
  rfl

end

end Sys2Proof.Machine

open Sys2Proof Sys2Proof.Machine in
/-- Settles O43: the clauses of `Ran` that speak of one pass in flight. -/
theorem passesFollowTheFrame : Obligations.PassesFollowTheFrame := by
  intro e k c cue s hs hlaw he hk hc
  have hmet := State.passesMet (.inl hlaw)
  have hreel := hmet.reel k c hk
  obtain ⟨q, tested, ns, h⟩ := State.edgeWork_ran he (s := s.taken (.pscFrameEdge e)) hs ⟨hmet.reel, hmet.cue, hmet.distinct⟩
  refine ⟨_, rfl, ?_⟩
  intro w closes
  have hwork : w ∈ allCtx.filterMap ((s.taken (.pscFrameEdge e)).runWork e.n) :=
    List.mem_filterMap.mpr ⟨k, mem_allCtx k, State.workOf_some (s := s.taken (.pscFrameEdge e)) hk hc⟩
  obtain ⟨done, -, hedited⟩ := h.edited
  have hnoticed := h.told.noticed
  have hnotices : w.notices.Sublist (ns ++ (allCtx.filterMap ((s.taken (.pscFrameEdge e)).runWork e.n)).flatMap
      (fun w => w.notices)) :=
    (sublist_flatMap_of_mem (fun w : PassWork => w.notices) hwork).trans (List.sublist_append_right _ _)
  refine ⟨hedited.settled, hedited.state, h.reels, ?_, ?_, fun hover => ?_, fun hcl => ?_, fun hcl d hd => ?_,
    fun hcl hall r hr => ?_⟩
  · rw [hreel] at hc ⊢
    exact h.cue_unwaited hk hc
  · refine List.Sublist.trans ?_ (List.sublist_append_left _ _)
    rw [h.raised]
    exact ((sublist_flatMap_of_mem _ hwork).trans (List.sublist_append_right _ _)).trans (List.sublist_append_left _ _)
  · refine h.notices_sublist hover ?_
    exact (hnotices.trans (List.sublist_append_left _ _)).trans (List.sublist_append_left _ _)
  · have hsw := State.switchRun_stays (s := s.taken (.pscFrameEdge e)) hk hcl
    refine ⟨?_, h.playReel.trans (by rw [hsw]; rfl), h.pendingPlay.trans (by rw [hsw]; rfl)⟩
    refine (h.ctxWork k fun hmem => ?_).trans ?_
    · have hmem := State.mem_closing.mp hmem
      rw [show (s.taken (.pscFrameEdge e)).ctx k = some c from hk] at hmem
      exact Bool.false_ne_true (hcl.symm.trans hmem)
    · rw [State.runWork, State.workOf_some (s := s.taken (.pscFrameEdge e)) hk hc]
      rfl
  · exact h.ctx_closed hk hcl hd
  · obtain ⟨hsw, hctx⟩ := h.switch_some hk hall hr
    refine ⟨h.playReel.trans (by rw [hsw]; rfl), h.pendingPlay.trans (by rw [hsw]; rfl),
      h.pointer.trans (by rw [hsw]; rfl), h.refind.trans (by rw [hsw]; exact Bool.or_true _), hctx,
      fun hover => h.notices_sublist hover ?_⟩
    rw [hsw]
    exact (hnotices.append (List.Sublist.refl _)).trans (List.sublist_append_left _ _)
end

section
/-! The next-cue pointer at every edge (R86 to R89, R91). -/

namespace Sys2Proof.Machine

/-- The waited flag of a cue as the aborts of an edge leave it (R11, R38). -/
def State.waitedAfter (s : State) (slot : Nat) : Bool := (s.cue s.cst.playReel slot).any fun c =>
  if allCtx.any (fun k => (s.ctx k).any fun d => d.slot == slot) then (c.afterPass false).waited else c.waited

theorem State.served_iff {s : State} {slot : Nat} :
    allCtx.any (fun k => (s.ctx k).any fun d => d.slot == slot) = true ↔ slot ∈ s.servedSlots := by
  rw [State.mem_servedSlots, List.any_eq_true]
  constructor
  · rintro ⟨k, -, h⟩
    cases hk : s.ctx k with
    | none => simp [hk] at h
    | some d => exact ⟨k, d, hk, by simpa [hk] using h⟩
  · rintro ⟨k, c, hk, rfl⟩
    exact ⟨k, mem_allCtx k, by simp [hk]⟩

theorem JustAborted.waited {cause : AbortCause} {s u : State} (h : JustAborted cause s u) (hmet : s.PassesMet) {slot : Nat}
    {c : Cue} (hc : u.cue s.cst.playReel slot = some c) : s.waitedAfter slot = c.waited := by
  unfold State.waitedAfter
  by_cases hserved : slot ∈ s.servedSlots
  · obtain ⟨k, d, hk, rfl⟩ := State.mem_servedSlots.mp hserved
    obtain ⟨cue, hcue, -⟩ := hmet.cue k d hk
    have hr := hmet.reel k d hk
    have hat := h.cueAt k d cue hk (hr.symm ▸ hcue)
    rw [hr, hc] at hat
    rw [hcue, Option.any_some, if_pos (State.served_iff.mpr hserved), Option.some.inj hat]
    rfl
  · have hsame := h.cues slot fun k d hk he => hserved (State.mem_servedSlots.mpr ⟨k, d, hk, he⟩)
    rw [hc] at hsame
    rw [← hsame, Option.any_some, if_neg fun hs => hserved (State.served_iff.mp hs)]

theorem length_filterMap_eq {α β : Type} (f : α → Option β) (p : α → Bool) (h : ∀ a, (f a).isSome = p a) (l : List α) :
    (l.filterMap f).length = (l.filter p).length := by
  induction l with
  | nil => rfl
  | cons a l ih =>
    have ha := h a
    cases hf : f a with
    | none => simp_all
    | some b => simp_all

/-- Each pass aborted raises one PASS_END. -/
theorem State.ends_count (cause : AbortCause) {s : State} (hmet : s.PassesMet) :
    (allCtx.filterMap (s.endOf cause)).length = (allCtx.filter fun k => (s.ctx k).isSome).length := by
  refine length_filterMap_eq _ _ (fun k => ?_) _
  unfold State.endOf
  cases hk : s.ctx k with
  | none => rfl
  | some c =>
    obtain ⟨cue, hc, -⟩ := hmet.cue k c hk
    rw [← hmet.reel k c hk] at hc
    rw [Option.bind_some, hc]
    rfl

/-- After a running edge the waited flags of the tested cues are clear (R88, R89). -/
theorem Ran.tested_clear {e : FrameEdge} {q : Nat} {tested : List Nat} {ns : List Notice} {s t : State}
    (h : Ran e q tested ns s t) (hmet : s.PassesMet) {slot : Nat} (hslot : slot ∈ tested) {c : Cue}
    (hc : t.cue s.cst.playReel slot = some c) : c.waited = false := by
  by_cases hserved : slot ∈ s.servedSlots
  · obtain ⟨k, d, hk, rfl⟩ := State.mem_servedSlots.mp hserved
    obtain ⟨cue, hcue, -⟩ := hmet.cue k d hk
    rw [h.cueAt k d cue hk hcue, if_pos hslot, Ctx.workOn_unwaited] at hc
    rw [← Option.some.inj hc]
    rfl
  · have hout (xs : List Entry) (hx : ∀ x ∈ xs, x ∈ s.candsOf e.n q) : slot ∉ xs.map Prod.fst := by
      intro hmem
      obtain ⟨x, hin, rfl⟩ := List.mem_map.mp hmem
      exact h.untested x (hx x hin) hslot
    rw [h.cues slot hserved (hout _ fun x => State.mem_candsOf_of_enters) (hout _ fun x => State.mem_candsOf_of_waits),
      if_pos hslot] at hc
    obtain ⟨c', -, rfl⟩ := Option.map_eq_some_iff.mp hc
    rfl

theorem Pointed.psc {q : Nat} {tested : List Nat} {ns : List Notice} {s v : State} (h : Pointed q tested ns s v) :
    v.psc = { s.psc with pointer := some q, refind := false } := by
  have hctxs := h.ctxs
  have hpointer := h.pointer
  have hrefind := h.refind
  generalize v.psc = x at hctxs hpointer hrefind
  obtain ⟨ctxs, pointer, refind⟩ := x
  dsimp only at hctxs hpointer hrefind
  rw [hctxs, hpointer, hrefind]

theorem Pointed.conform {q : Nat} {tested : List Nat} {ns : List Notice} {s v : State} (h : Pointed q tested ns s v) :
    (v.reel s.cst.playReel).conform = s.playReel.conform := by
  have := h.header
  simp only [Reel.mk.injEq] at this
  simp [this]

/-- Step 2 of an abort edge that applies no play reel. -/
theorem State.edgeWork_pointed {e : FrameEdge} (he : runningEdge e = false) {s : State} (hs : s.cst.lawful = true)
    (hmet : s.PassesMet) (hsw : s.switchAll = none) : ∃ q tested ns, Pointed q tested ns (s.edgeFirst e).1
        ((s.edgeFirst e).1.pointerWork e)
      ∧ PointerWork e s.pos.rate ((s.edgeWork e).reel s.cst.playReel) s.waitedAfter s.psc.pointer s.psc.refind q tested ns
      ∧ s.edgeWork e = ((s.edgeFirst e).1.pointerWork e).markWhere (s.edgeFirst e).2
      ∧ (s.edgeFirst e).1.cst.playReel = s.cst.playReel := by
  obtain ⟨h, -⟩ := State.edgeFirst_aborts he hs hmet
  have hedge := State.edgeWork_aborts he h.toAllAborted
  rw [hsw] at hedge
  have hplay : (s.edgeFirst e).1.cst.playReel = s.cst.playReel := by rw [h.playReel, hsw]; rfl
  have hrefind := State.edgeFirst_refind e s
  generalize (s.edgeFirst e).1 = u at h hedge hplay hrefind
  obtain ⟨done, hedited⟩ := h.edited
  have hreel : u.playReel = u.reel s.cst.playReel := by rw [State.playReel, hplay]
  obtain ⟨q, tested, ns, hp, hwork⟩ := u.pointerWork_pointed e s.waitedAfter
    (hreel ▸ hedited.perm.nodup_iff.mpr (Reel.order_nodup (State.reel_lawful hs _)))
    fun slot c hc => h.waited hmet (hplay ▸ hc)
  refine ⟨q, tested, ns, hp, ?_, hedge, hplay⟩
  rw [hedge]
  rw [State.rate_of_outer h.outer, h.pointer, hrefind] at hwork
  rw [hreel] at hwork
  have horder := hp.order
  have hconform := hp.conform
  have hcue := hp.unwaited
  rw [hreel, hplay] at horder hconform
  rw [hplay] at hcue
  refine hwork.congr horder ?_ hcue
  show Reel.delta ((u.pointerWork e).reel s.cst.playReel) = _
  rw [Reel.delta, hconform]
  rfl

end Sys2Proof.Machine

open Sys2Proof Sys2Proof.Machine in
/-- Settles O41: `Ran` gives the pointer of a running edge, `State.edgeWork_pointed` that of an abort edge. -/
theorem pointerFollowsPicture : Obligations.PointerFollowsPicture := by
  intro e s hs hlaw
  have hmet := State.passesMet hlaw
  have hmet' : (s.taken (.pscFrameEdge e)).PassesMet := ⟨hmet.reel, hmet.cue, hmet.distinct⟩
  refine ⟨_, rfl, ?_⟩
  intro play active switches moved waited
  refine ⟨fun he => ?running, fun he hswitch => ?switched, fun he hswitch => ?aborted⟩
  case running =>
    obtain ⟨q, tested, ns, h⟩ := State.edgeWork_ran he (s := s.taken (.pscFrameEdge e)) hs hmet'
    have hsw : switches = ((s.taken (.pscFrameEdge e)).switchRun e.n).isSome := by
      have hpend := h.pendingPlay
      show (s.cst.pendingPlay.isSome && ((s.taken (.pscFrameEdge e)).edgeWork e).cst.pendingPlay.isNone) = _
      rw [hpend]
      cases hr : (s.taken (.pscFrameEdge e)).switchRun e.n with
      | some r =>
        have hp : s.cst.pendingPlay = some r := (State.switchRun_some hr).1
        rw [hp]; rfl
      | none =>
        show (s.cst.pendingPlay.isSome && s.cst.pendingPlay.isNone) = false
        cases s.cst.pendingPlay <;> rfl
    refine ⟨q, tested, ns, h.work, ?_, ?_, fun slot hslot c hc => h.tested_clear hmet' hslot hc, h.first⟩
    · rw [hsw]; exact h.pointer
    · rw [hsw]; exact h.refind
  case switched =>
    obtain ⟨h, hrefind, hpointer, -⟩ := State.edgeWork_allAborted he (s := s.taken (.pscFrameEdge e)) hs hmet'
    have hsw : (s.taken (.pscFrameEdge e)).switchAll.isSome = true := h.switched ▸ hswitch
    exact ⟨hpointer hsw, hrefind.trans (by rw [hsw]; exact Bool.or_true _)⟩
  case aborted =>
    obtain ⟨h, hrefind, -, -⟩ := State.edgeWork_allAborted he (s := s.taken (.pscFrameEdge e)) hs hmet'
    have hsw : (s.taken (.pscFrameEdge e)).switchAll = none := by
      have := h.switched.symm.trans hswitch
      simpa using this
    obtain ⟨hjust, -⟩ := State.edgeFirst_aborts he (s := s.taken (.pscFrameEdge e)) hs hmet'
    obtain ⟨q, tested, ns, hp, hwork, hedge, hplay⟩ := State.edgeWork_pointed he (s := s.taken (.pscFrameEdge e)) hs hmet' hsw
    refine ⟨q, tested, ns, hwork, ?_, ?_, fun slot c hc => ?_, fun room => ?_, fun hzero => ?_⟩
    · show ((s.taken (.pscFrameEdge e)).edgeWork e).psc.pointer = _
      rw [hedge]
      exact hp.pointer
    · exact hrefind.trans (by rw [hsw]; exact Bool.or_false _)
    · have hcue : ((s.taken (.pscFrameEdge e)).edgeWork e).cue play slot = some c := hc
      rw [hedge] at hcue
      have hat := hp.cues slot
      rw [hplay] at hat
      replace hcue := hat.symm.trans hcue
      by_cases hslot : slot ∈ tested
      · rw [if_pos hslot] at hcue
        obtain ⟨c', -, rfl⟩ := Option.map_eq_some_iff.mp hcue
        simp [hslot, Cue.unwaited]
      · rw [if_neg hslot] at hcue
        have hw : waited slot = c.waited := hjust.waited hmet' hcue
        simp [hslot, hw]
    · have htold := hjust.told.trans hp.told
      rw [hsw] at htold
      have hcount := State.ends_count (edgeCause e) hmet'
      have hheld : ((s.taken (.pscFrameEdge e)).edgeWork e).lnk.noticesHeld = _ :=
        (congrArg (fun t : State => t.lnk.noticesHeld) hedge).trans
          (htold.held_append (by
            simp only [List.length_append, hcount, Option.toList_none, List.map_nil, List.length_nil, Nat.add_zero]
            exact room))
      refine ⟨(congrArg List.length hheld).trans ?_, ?_, ?_⟩
      · simp only [List.length_append, hcount, Option.toList_none, List.map_nil, List.length_nil, Nat.add_zero]
        exact (Nat.add_assoc _ _ _).symm
      · exact hheld ▸ List.prefix_append _ _
      · exact hheld ▸ (List.suffix_append _ _).trans (List.suffix_append _ _)
    · have hfree (k : Fin 4) : s.ctx k = none := by
        have := List.length_eq_zero_iff.mp hzero
        rw [List.filter_eq_nil_iff] at this
        simpa using this k (mem_allCtx k)
      have hfirst := State.edgeFirst_free e (s := s.taken (.pscFrameEdge e)) hfree
      rw [hfirst] at hp hedge
      rw [State.markWhere_false] at hedge
      have hlanes (v : State) (hv : Pointed q tested ns (s.taken (.pscFrameEdge e)) v) :
          v.laneReport e = { n := e.n, state := e.state, lanes := [] } := by
        have hctx (k : Fin 4) : v.ctx k = none := (hv.ctx k).trans (hfree k)
        simp only [State.laneReport, hctx]
        rfl
      refine ⟨?_, ?_, ?_, ?_, ?_⟩
      · refine (State.apart_of_outer (s := s) (t := State.post _ _) h.outer).trans ?_
        rw [hedge]
        refine State.apart_ext rfl rfl (CueStore.eq_of_bare hp.bare) rfl hp.psc rfl rfl rfl rfl rfl ?_
        show _ ++ [Instr.laneReport (State.laneReport e _)] = _
        rw [hlanes _ hp, hp.raised]
        rfl
      · rw [hedge]; exact hp.reels
      · rw [hedge]; exact hp.header
      · rw [hedge]; exact hp.cues
      · rw [hedge]; exact fun room => hp.told.noticed (.inl room)
end

section
/-! What every command of the controller leaves of the link, whatever its owner does (R25, R172). -/

namespace Sys2Proof.Machine

/-! ## The receiver, the held command and the answers -/

/-- What a notice raised leaves of the link: the receiver, the held command and the answers held. -/
def Link.intake (l : Link) : Rx × Option Held × List Place := (l.rx, l.held, l.placesHeld)

@[simp] theorem State.transmit_intake (s : State) : s.transmit.lnk.intake = s.lnk.intake := by simp [Link.intake]

@[simp] theorem State.raise_intake (n : Notice) (s : State) : (s.raise n).lnk.intake = s.lnk.intake :=
  (State.transmit_intake _).trans (by simp [Link.intake])

/-- An answer goes its way through the link, whatever notices the work before it raised (log entry 2). -/
theorem State.deliver_delivered (i : Instr) (a : Answer) {s t : State} (h : t.lnk.intake = s.lnk.intake) :
    (s.deliver i a t).lnk.rx = s.lnk.rx ∧ Delivered i a s (s.deliver i a t) := by
  obtain ⟨hrx, hheld, hplaces⟩ :
      t.lnk.rx = s.lnk.rx ∧ t.lnk.held = s.lnk.held ∧ t.lnk.placesHeld = s.lnk.placesHeld := by
    simpa [Link.intake] using h
  unfold Delivered State.placesAfter State.heldAfter State.deliver
  by_cases hc : s.carries i = true
  · simp only [hc, if_true]
    obtain ⟨-, kplaces, kheld, krx, -, -⟩ := State.settleTie_keeps s.lnk.wire.isNone (State.transmit
      { t with lastAnswer := some a, lnk := (if s.lnk.held.isNone then t.lnk.hold (bodyOf i) else t.lnk).fill a })
    refine ⟨krx.trans ?_, kplaces.trans ?_, kheld.trans ?_⟩
    · rw [State.transmit_rx, Link.fill_rx, ← hrx]
      split <;> rfl
    · rw [State.transmit_placesHeld, Link.fill_placesHeld, ← hplaces]
      split
      · rw [Link.hold_placesHeld]
      · rw [List.append_nil]
    · rw [State.transmit_held]
      cases hs : s.lnk.held with
      | none => rfl
      | some x => simp [Link.fill, hheld, hs]
  · simp only [hc]
    exact ⟨hrx, hplaces, hheld⟩

/-- What the work of an owner on a command leaves of the link, and what a refusal by it is (R25, R172). -/
structure Proper (s : State) (x : State × Reply) : Prop where
  intake : x.1.lnk.intake = s.lnk.intake
  refused : x.2.result.isRefusal = true → x = refuse x.2.result s

theorem Proper.refusal (r : Result) (s : State) : Proper s (refuse r s) := ⟨rfl, fun _ => rfl⟩

/-- Work that carries its command out. -/
theorem Proper.carriedOut {s t : State} {r : Reply} (h : t.lnk.intake = s.lnk.intake) (hr : r.result.isRefusal = false) :
    Proper s (t, r) :=
  ⟨h, fun e => by simp [hr] at e⟩

/-- A command that is answered from the state as it stands. -/
theorem Proper.read {s : State} {r : Reply} (hr : r.result.isRefusal = false) : Proper s (s, r) := .carriedOut rfl hr

theorem Proper.ite {p : Prop} [Decidable p] {s : State} {x y : State × Reply} (hx : Proper s x) (hy : Proper s y) :
    Proper s (if p then x else y) := by
  split
  · exact hx
  · exact hy

/-- One more check before work that is proper. -/
theorem Proper.check {p : Prop} [Decidable p] {s : State} {r : Result} {x : State × Reply} (hx : Proper s x) :
    Proper s (if p then refuse r s else x) :=
  .ite (.refusal r s) hx

/-- The event of an owner whose work is proper. -/
theorem State.owner_proper {i : Instr} {k : Byte} {f : State → State × Reply} {s : State} (hk : kindOf i = some k)
    (h : Proper s (f s)) : ∃ a, (s.owner i f).lastAnswer = some a ∧ a.kind = k ∧ (s.owner i f).lnk.rx = s.lnk.rx
      ∧ Delivered i a s (s.owner i f)
      ∧ (a.result.isRefusal = true → (s.owner i f).apart = s.apart ∧ (s.owner i f).lnk.noticesHeld = s.lnk.noticesHeld
          ∧ (s.owner i f).lnk.overrun = s.lnk.overrun ∧ a.data = .nothing) := by
  obtain ⟨hrx, hdelivered⟩ := State.deliver_delivered i
    { kind := (kindOf i).getD 0, result := (f s).2.result, data := (f s).2.data } h.intake
  refine ⟨_, State.owner_lastAnswer i f s, by rw [hk]; rfl, hrx, hdelivered, fun hr => ?_⟩
  have hf := h.refused hr
  obtain ⟨hapart, -, hnotices, -, hoverrun⟩ := State.owner_refused (i := i) hf
  exact ⟨hapart, by rw [hnotices, List.append_nil], hoverrun, by rw [hf]; rfl⟩

/-! ## The shared checks -/

theorem withReel_proper {code : Byte} {f : Fin 8 → State → State × Reply} {s : State} (h : ∀ r, Proper s (f r s)) :
    Proper s (withReel code f s) := by
  unfold withReel
  split
  · exact .refusal _ s
  · exact h _

theorem withForm_proper {form : Option UndefinedForm} {f : State → State × Reply} {s : State} (h : Proper s (f s)) :
    Proper s (withForm form f s) := by
  unfold withForm
  split
  · exact .refusal _ s
  · exact h

theorem cueChecks_proper {cmd : CueCommand} {ok : Bool} {f : State → State × Reply} {s : State} (h : Proper s (f s)) :
    Proper s (cueChecks cmd ok f s) := by
  obtain ⟨r, hr⟩ | hgo := cueChecks_cases cmd ok f s
  · rw [hr]; exact .refusal r s
  · rw [hgo]; exact h

theorem withCue_proper {loop : BitVec 16} {f : Nat → Cue → State → State × Reply} {s : State}
    (h : ∀ slot c, Proper s (f slot c s)) : Proper s (withCue loop f s) := by
  obtain ⟨r, hr⟩ | ⟨slot, c, -, hgo⟩ := withCue_cases loop f s
  · rw [hr]; exact .refusal r s
  · rw [hgo]; exact h slot c

theorem takeChecks_proper {ok : Bool} {loop : BitVec 16} {take : Byte} {f : Nat → State → State} {s : State}
    (h : ∀ slot, (f slot s).lnk.intake = s.lnk.intake) : Proper s (takeChecks ok loop take f s) := by
  refine .check <| .check <| withCue_proper fun slot c => .check ?_
  split
  · exact .refusal _ s
  · exact .check <| .carriedOut (h slot) rfl

/-! ## What the work of each block leaves of the link -/

@[simp] theorem State.settleCue_lnk (b : Bool) (r : Fin 8) (slot : Nat) (s : State) : (s.settleCue b r slot).lnk = s.lnk := by
  unfold State.settleCue; split <;> simp

@[simp] theorem State.abortTake_lnk (c : Ctx) (s : State) : (s.abortTake c).lnk = s.lnk := by
  unfold State.abortTake; split <;> rfl

@[simp] theorem State.switchPlay_intake (r : Fin 8) (s : State) : (s.switchPlay r).lnk.intake = s.lnk.intake :=
  State.raise_intake _ _

@[simp] theorem State.applyPendingPlay_intake (s : State) : s.applyPendingPlay.lnk.intake = s.lnk.intake := by
  unfold State.applyPendingPlay
  split
  · exact State.switchPlay_intake _ s
  · rfl

theorem State.abortCtx_intake (cause : AbortCause) (k : Fin 4) (s : State) :
    (s.abortCtx cause k).lnk.intake = s.lnk.intake := by
  unfold State.abortCtx
  split
  · rfl
  · simp [State.freeCtx, State.raiseEnd]

theorem State.abortAll_intake (cause : AbortCause) (ks : List (Fin 4)) (s : State) :
    (s.abortAll cause ks).lnk.intake = s.lnk.intake := by
  unfold State.abortAll
  induction ks generalizing s with
  | nil => rfl
  | cons k ks ih => rw [List.foldl_cons, ih, State.abortCtx_intake]

theorem State.retireCtx_intake (k : Fin 4) (s : State) : (s.retireCtx k).lnk.intake = s.lnk.intake := by
  unfold State.retireCtx
  split
  · rfl
  · simp [State.freeCtx, State.raiseEnd]

theorem State.retireCue_intake (slot : Nat) (c : Cue) (s : State) : (s.retireCue slot c).lnk.intake = s.lnk.intake := by
  unfold State.retireCue
  simp only [State.markIfPlay_lnk, State.modReel_lnk]
  split
  · split
    · exact State.retireCtx_intake _ s
    · rfl
  · rfl

theorem State.releaseSource_lnk (conform : Option ConformRecord) (s : State) : (s.releaseSource conform).lnk = s.lnk := by
  unfold State.releaseSource; split <;> rfl

theorem State.clearReel_lnk (r : Fin 8) (s : State) : (s.clearReel r).lnk = s.lnk := by
  unfold State.clearReel
  dsimp only
  split <;> simp [State.releaseSource_lnk]

theorem State.transferManual_intake (e : ManualEntry) (s : State) : (s.transferManual e).lnk.intake = s.lnk.intake := by
  unfold State.transferManual
  dsimp only
  split <;> exact State.raise_intake _ _

theorem State.punchManual_intake (e : ManualEntry) (s : State) : (s.punchManual e).lnk.intake = s.lnk.intake := by
  unfold State.punchManual
  split
  · rfl
  · rfl
  · exact s.transferManual_intake e
  · exact s.transferManual_intake e

theorem State.enterPos_intake (p : Pos) (s : State) : (s.enterPos p).lnk.intake = s.lnk.intake := State.raise_intake _ _

/-! ## The work of each owner -/

/-- A command is taken by an owner whose work on it is proper. -/
def Owned (i : Instr) : Prop := ∀ s, ∃ f, exec i s = .next (s.owner i f) ∧ Proper s (f s)

theorem State.selectPlay_proper (r : Fin 8) (s : State) : Proper s (s.selectPlay r) := by
  unfold State.selectPlay
  split
  · split
    · exact .read rfl
    · exact .carriedOut (s.switchPlay_intake r) rfl
  · split <;> exact .carriedOut rfl rfl

theorem State.startShift_proper (delta : Int) (s : State) : Proper s (s.startShift delta) :=
  .check <| .check <| .check <| .check <| .check <| .ite (.read rfl) (.carriedOut (by simp [State.startConform]) rfl)

theorem State.startCopy_proper (source dest : Fin 8) (delta : Int) (s : State) : Proper s (s.startCopy source dest delta) :=
  .check <| .check <| .check <| .check <| .check <| .check <| .ite (.read rfl) (.carriedOut rfl rfl)

theorem State.resume_proper (s : State) : Proper s s.resume := by
  refine .check <| .check ?_
  split
  · exact .carriedOut rfl rfl
  · exact .refusal _ s

/-- DONE and ADJUSTED are no refusals. -/
theorem doneOr_accepts (clamped : Bool) : (doneOr clamped).result.isRefusal = false := by
  cases clamped <;> rfl

theorem State.writeCue_proper (loop : Nat) (v : CueVals) (clamped : Bool) (s : State) :
    Proper s (s.writeCue loop v clamped) := by
  refine .check <| .check ?_
  split
  · exact .refusal _ s
  · exact .carriedOut (by simp) (doneOr_accepts clamped)

theorem State.writeChecked_proper (loop : Nat) (f : CueFields) (mode : Mode) (s : State) :
    Proper s (s.writeChecked loop f mode) := by
  unfold State.writeChecked
  split
  · exact .ite (s.writeCue_proper loop _ _) (.refusal _ s)
  · exact .refusal _ s

theorem State.amendCue_proper (slot : Nat) (c : Cue) (e : EditVals) (clamped : Bool) (s : State) :
    Proper s (s.amendCue slot c e clamped) :=
  .ite (.carriedOut rfl rfl) (.carriedOut (by simp) (doneOr_accepts clamped))

theorem State.amendChecked_proper (loop : BitVec 16) (f : AmendFields) (mode : Option Mode) (s : State) :
    Proper s (s.amendChecked loop f mode) := by
  unfold State.amendChecked
  split
  · exact withCue_proper fun slot c => .check <| .check <| .check <| s.amendCue_proper slot c _ _
  · exact .refusal _ s

theorem State.armFound_proper (kind : ArmKind) (slot : Nat) (c : Cue) (s : State) : Proper s (s.armFound kind slot c) := by
  refine .check ?_
  split
  · exact .refusal _ s
  · exact .carriedOut rfl rfl

theorem State.disarmFound_proper (slot : Nat) (c : Cue) (s : State) : Proper s (s.disarmFound slot c) := by
  unfold State.disarmFound
  cases c.state with
  | ready => exact .read rfl
  | armed | done | passing => exact .carriedOut rfl rfl

theorem setRate_owned (code : Byte) : Owned (.setRate code) := by
  refine fun s => ⟨_, rfl, ?_⟩
  split
  · exact .refusal _ s
  · refine .check <| .carriedOut ?_ rfl
    split
    · rfl
    · exact s.enterPos_intake _

theorem setLines_owned (manual activeLow : LineSet) : Owned (.setLines manual activeLow) := by
  refine fun s => ⟨_, rfl, .check <| .carriedOut ?_ rfl⟩
  split
  · rfl
  · exact State.raise_intake _ _

theorem punchManual_owned (lines : LineSet) (action : Byte) : Owned (.punchManual lines action) := by
  refine fun s => ⟨_, rfl, ?_⟩
  split
  · exact .refusal _ s
  · exact .check <| .check <| .check <| .carriedOut (s.punchManual_intake _) rfl

theorem passAbort_owned (context : Byte) : Owned (.passAbort context) := by
  refine fun s => ⟨_, rfl, ?_⟩
  split
  · exact .refusal _ s
  · exact .carriedOut (s.abortAll_intake _ _) rfl

theorem reelClear_owned : Owned .reelClear := by
  refine fun s => ⟨_, rfl, ?_⟩
  have hclear : Proper s (if s.editReel.anyPassing then refuse .passActive s
      else (s.clearReel s.cst.editReel, { result := .done })) :=
    .check <| .carriedOut (by rw [State.clearReel_lnk]) rfl
  dsimp only
  split
  · exact .refusal _ s
  · exact .refusal _ s
  · exact .read rfl
  · exact hclear
  · exact hclear

theorem reelCopy_owned (source dest : Byte) (delta : BitVec 32) : Owned (.reelCopy source dest delta) := by
  refine fun s => ⟨_, rfl, ?_⟩
  split
  · exact .ite (s.startCopy_proper _ _ _) (.refusal _ s)
  · exact .refusal _ s

theorem cueWrite_owned (loop : BitVec 16) (f : CueFields) : Owned (.cueWrite loop f) := by
  refine fun s => ⟨_, rfl, ?_⟩
  split
  · exact .refusal _ s
  · exact cueChecks_proper (s.writeChecked_proper _ f _)

theorem cueAmend_owned (loop : BitVec 16) (reserved : BitVec 4) (f : AmendFields) : Owned (.cueAmend loop reserved f) := by
  refine fun s => ⟨_, rfl, ?_⟩
  split
  · exact .refusal _ s
  · exact cueChecks_proper (s.amendChecked_proper loop f _)

theorem cueNext_owned (label : Label) : Owned (.cueNext label) := by
  refine fun s => ⟨_, rfl, ?_⟩
  split
  · exact .refusal _ s
  · split
    · exact .refusal _ s
    · exact .read rfl

theorem cueArm_owned (loop : BitVec 16) (kind : Byte) : Owned (.cueArm loop kind) := by
  refine fun s => ⟨_, rfl, ?_⟩
  split
  · exact .refusal _ s
  · exact cueChecks_proper (withCue_proper fun slot c => s.armFound_proper _ slot c)

theorem cueProtect_owned (loop : BitVec 16) (value : Byte) : Owned (.cueProtect loop value) := by
  refine fun s => ⟨_, rfl, ?_⟩
  split
  · exact .refusal _ s
  · exact cueChecks_proper (withCue_proper fun _ _ => .carriedOut rfl rfl)

theorem takeCircle_owned (loop : BitVec 16) (take value : Byte) : Owned (.takeCircle loop take value) := by
  refine fun s => ⟨_, rfl, ?_⟩
  split
  · exact .refusal _ s
  · exact takeChecks_proper fun _ => rfl

/-- Every command of the controller is an owner's event with proper work. -/
theorem owned_of_kindOf {i : Instr} {k : Byte} (hk : kindOf i = some k) : Owned i := by
  cases i with
  | status => exact fun s => ⟨_, rfl, .carriedOut rfl rfl⟩
  | restart => exact fun s => ⟨_, rfl, .read rfl⟩
  | setRate code => exact setRate_owned code
  | setFreewheel limit => exact fun s => ⟨_, rfl, .carriedOut rfl (by dsimp only; split <;> rfl)⟩
  | positionRead => exact fun s => ⟨_, rfl, .read rfl⟩
  | setVoice qualify allowance => exact fun s => ⟨_, rfl, .carriedOut rfl (by dsimp only; split <;> rfl)⟩
  | setFlash length => exact fun s => ⟨_, rfl, .carriedOut rfl (by dsimp only; split <;> rfl)⟩
  | setLines manual activeLow => exact setLines_owned manual activeLow
  | punchManual lines action => exact punchManual_owned lines action
  | guardRelease => exact fun s => ⟨_, rfl, .ite (.carriedOut rfl rfl) (.refusal _ s)⟩
  | passAbort context => exact passAbort_owned context
  | reelSelectPlay reel form => exact fun s => ⟨_, rfl, withForm_proper (withReel_proper fun r => s.selectPlay_proper r)⟩
  | reelSelectEdit reel => exact fun s => ⟨_, rfl, withReel_proper fun _ => .carriedOut rfl rfl⟩
  | reelSelectTag reel tag form =>
    exact fun s => ⟨_, rfl, withForm_proper (withReel_proper fun _ => .carriedOut rfl rfl)⟩
  | reelInfo reel => exact fun s => ⟨_, rfl, withReel_proper fun _ => .read rfl⟩
  | reelClear => exact reelClear_owned
  | reelShift delta => exact fun s => ⟨_, rfl, .ite (s.startShift_proper _) (.refusal _ s)⟩
  | reelCopy source dest delta => exact reelCopy_owned source dest delta
  | reelResume => exact fun s => ⟨_, rfl, s.resume_proper⟩
  | cueWrite loop f => exact cueWrite_owned loop f
  | cueAmend loop reserved f => exact cueAmend_owned loop reserved f
  | cueRetire loop =>
    exact fun s => ⟨_, rfl, cueChecks_proper (withCue_proper fun slot c =>
      .check <| .carriedOut (s.retireCue_intake slot c) rfl)⟩
  | cueRead loop => exact fun s => ⟨_, rfl, .ite (withCue_proper fun _ _ => .read rfl) (.refusal _ s)⟩
  | cueNext label => exact cueNext_owned label
  | cueArm loop kind => exact cueArm_owned loop kind
  | cueDisarm loop => exact fun s => ⟨_, rfl, cueChecks_proper (withCue_proper fun slot c => s.disarmFound_proper slot c)⟩
  | cueProtect loop value => exact cueProtect_owned loop value
  | takeCircle loop take value => exact takeCircle_owned loop take value
  | takeRetire loop take => exact fun s => ⟨_, rfl, takeChecks_proper fun _ => rfl⟩
  | _ => exact absurd hk (Option.some_ne_none k).symm

end Sys2Proof.Machine

open Sys2Proof.Machine in
/-- Settles O11: every command is the event of an owner whose work is `Proper` (`owned_of_kindOf`). -/
theorem refusedCommandsChangeNothing : Obligations.RefusedCommandsChangeNothing := by
  intro i k s hk
  obtain ⟨f, hexec, hproper⟩ := owned_of_kindOf hk s
  exact ⟨_, hexec, State.owner_proper hk hproper⟩
end

section
/-! CUE_ARM, CUE_DISARM and CUE_PROTECT (R42 to R45): the checks of a cue command in order (R25 to R27), and one cue record
changed. -/

namespace Sys2Proof.Machine

/-! ## Checks in order -/

/-- The rows of Table 2-1 as a chain: the account `R` of each refusal, and `P` where the reel allows the command (R26). -/
theorem reelRefusal_edit (x : ReelState) (R : Result → Prop) (P : Prop) : (reelRefusal .edit x).elim P R ↔
    if x = .conforming ∨ x = .locked then R .reelBusy else if x = .partly then R .reelPartial else P := by
  cases x <;> simp [reelRefusal]

theorem reelRefusal_arming (x : ReelState) (R : Result → Prop) (P : Prop) : (reelRefusal .arming x).elim P R ↔
    if x = .conforming then R .reelBusy else if x = .partly then R .reelPartial else P := by
  cases x <;> simp [reelRefusal]

theorem reelRefusal_protect (x : ReelState) (R : Result → Prop) (P : Prop) : (reelRefusal .protect x).elim P R ↔
    if x = .partly then R .reelPartial else P := by
  cases x <;> simp [reelRefusal]

section
variable {i : Instr} {f g : State → State × Reply} {s : State}

/-- The first checks of a cue command (R25, R26), `A` being its account by the state of the edit reel and `P` its account
where that state allows it. -/
theorem cueChecks_inOrder {cmd : CueCommand} {bad A P : Prop} [Decidable bad]
    (htable : (reelRefusal cmd s.editReel.state).elim P (fun r => Refused i r s (s.owner i g)) → A)
    (hbad : bad → g s = refuse .badField s) (hgood : ¬ bad → g s = cueChecks cmd true f s)
    (hrest : ¬ bad → g s = f s → P) : if bad then Refused i .badField s (s.owner i g) else A := by
  split_ifs with hb
  · exact State.owner_refused (hbad hb)
  · refine htable ?_
    cases hr : reelRefusal cmd s.editReel.state with
    | none => exact hrest hb ((hgood hb).trans (cueChecks_pass rfl hr f))
    | some r => exact State.owner_refused ((hgood hb).trans (cueChecks_reel rfl hr f))

/-- The check for a live cue (R27), `P` being the account of the command on the cue found. -/
theorem withCue_inOrder {loop : BitVec 16} {f : Nat → Cue → State → State × Reply} {P : Nat × Cue → Prop}
    (hs : s.cst.lawful = true) (hg : g s = withCue loop f s)
    (hrest : ∀ p, s.found loop = some p → g s = f p.1 p.2 s → P p) :
    (s.found loop = none → Refused i .noSuchCue s (s.owner i g)) ∧ ∀ p, s.found loop = some p → P p :=
  ⟨fun h => State.owner_refused (hg.trans (withCue_none h f)), fun p h => hrest p h (hg.trans (withCue_some hs h f))⟩

/-! ## One cue record changed -/

/-- The account of a command that changes one live cue record and nothing else. -/
theorem State.owner_modCue {r : Fin 8} {slot : Nat} {c : Cue} {edit : Cue → Cue} {x : Result} (hc : s.cue r slot = some c)
    (hg : g s = (s.modCue r slot edit, { result := x })) :
    OnlyReels s.psc.refind s (s.owner i g) ∧ OneCue r slot (edit c) s (s.owner i g)
      ∧ Answered i x .nothing [] s (s.owner i g) := by
  rw [State.owner_eq hg]
  refine ⟨?_, ⟨?_, fun k hk => ?_, ?_, ?_, fun r' hr => ?_⟩, State.answers_answered (Noticed.of_lnk rfl rfl rfl)⟩
  · unfold OnlyReels
    rw [State.answers_apart, State.answers_cst]; rfl
  · rw [State.answers_cue, State.cue_modCue, if_pos ⟨rfl, rfl⟩, hc]; rfl
  · rw [State.answers_cue, State.cue_modCue, if_neg fun e => hk e.2]
  · rw [State.answers_reel]; simp [State.modCue]
  · rw [State.answers_reel]; simp [State.modCue, Reel.modCue]
  · rw [State.answers_reel]; simp [State.modCue, hr]

/-- The account of a command that is carried out and changes nothing, in the same terms. -/
theorem State.owner_unchanged {r : Fin 8} {slot : Nat} {c : Cue} {x : Result} (hc : s.cue r slot = some c)
    (hg : g s = (s, { result := x })) :
    OnlyReels s.psc.refind s (s.owner i g) ∧ OneCue r slot c s (s.owner i g)
      ∧ Answered i x .nothing [] s (s.owner i g) := by
  rw [State.owner_eq hg]
  refine ⟨?_, ⟨?_, fun k _ => ?_, ?_, ?_, fun r' _ => ?_⟩, State.answers_answered (Noticed.refl s)⟩
  · unfold OnlyReels
    rw [State.answers_apart, State.answers_cst]
  · rw [State.answers_cue, hc]
  · rw [State.answers_cue]
  all_goals rw [State.answers_reel]

end

/-! ## Coded values -/

/-- A byte is 0 or 1, or no code of a value that has two codes (Table 10-4). -/
theorem code_cases (m : Byte) : m = 0 ∨ m = 1 ∨ 1 < m.toNat := by
  rw [BitVec.toNat_eq, BitVec.toNat_eq]
  show m.toNat = 0 ∨ m.toNat = 1 ∨ 1 < m.toNat
  omega

theorem code_ne_of_gt {m : Byte} (h : 1 < m.toNat) : m ≠ 0 ∧ m ≠ 1 := by
  constructor <;> rintro rfl <;> simp at h

theorem modeOf_of_gt {m : Byte} (h : 1 < m.toNat) : modeOf m = none := by
  rw [modeOf, if_neg (code_ne_of_gt h).1, if_neg (code_ne_of_gt h).2]

theorem armKindOf_of_gt {m : Byte} (h : 1 < m.toNat) : armKindOf m = none := by
  rw [armKindOf, if_neg (code_ne_of_gt h).1, if_neg (code_ne_of_gt h).2]

theorem onOffOf_of_gt {m : Byte} (h : 1 < m.toNat) : onOffOf m = none := by
  rw [onOffOf, if_neg (code_ne_of_gt h).1, if_neg (code_ne_of_gt h).2]

theorem armKindOf_of_le {m : Byte} (h : m.toNat ≤ 1) : armKindOf m = some (if m = 1 then .record else .rehearse) := by
  obtain rfl | rfl | hm := code_cases m
  · rfl
  · rfl
  · omega

theorem onOffOf_of_le {m : Byte} (h : m.toNat ≤ 1) : onOffOf m = some (decide (m = 1)) := by
  obtain rfl | rfl | hm := code_cases m
  · rfl
  · rfl
  · omega

theorem loopOk_false {loop : BitVec 16} (h : ¬ (1 ≤ loop.toNat ∧ loop.toNat ≤ 9999)) : loopOk loop = false := by
  simpa using mt (loopOk_iff loop).mp h

/-! ## CUE_ARM -/

theorem State.armFound_passing {kind : ArmKind} {slot : Nat} {c : Cue} {s : State} (hp : c.state.isPassing = true) :
    s.armFound kind slot c = refuse .passActive s := if_pos hp

theorem State.armFound_idle {kind : ArmKind} {slot : Nat} {c : Cue} {s : State} (hp : ¬ c.state.isPassing = true) :
    s.armFound kind slot c = (if kind = .record then recordRefusal c else none).elim
      (s.modCue s.cst.editReel slot fun x => { x with state := .armed kind }, { result := .done }) fun r => refuse r s := by
  rw [State.armFound, if_neg hp]
  cases (if kind = .record then recordRefusal c else none) <;> rfl

/-- The checks of CUE_ARM that are made for RECORD alone, as a chain (R42). -/
theorem armRefusal_eq (kind : Byte) (c : Cue) :
    (if (if kind = 1 then ArmKind.record else .rehearse) = .record then recordRefusal c else none) =
      if kind = 1 ∧ c.vals.lines = 0 then some .noLines
      else if kind = 1 ∧ 100 ≤ c.nextTake then some .takeLimit
      else if kind = 1 ∧ 6 ≤ c.takes.length ∧ (∀ t ∈ c.takes, t.circled = true) then some .takesFull
      else none := by
  by_cases hk : kind = 1
  · have hfull : c.allCircled = true ↔ 6 ≤ c.takes.length ∧ ∀ t ∈ c.takes, t.circled = true := by
      rw [Cue.allCircled, Bool.and_eq_true, decide_eq_true_iff, List.all_eq_true]; rfl
    simp only [hk, if_true, true_and, recordRefusal, hfull]
  · simp only [hk, if_false, false_and, reduceCtorEq]

/-! ## CUE_DISARM, by the state of the cue (R44) -/

section
variable {slot : Nat} {c : Cue} {s : State}

theorem State.disarmFound_ready (h : c.state = .ready) : s.disarmFound slot c = (s, { result := .done }) := by
  simp only [State.disarmFound, h]

theorem State.disarmFound_armed {kind : ArmKind} (h : c.state = .armed kind) : s.disarmFound slot c =
    (s.modCue s.cst.editReel slot fun x => { x with state := .ready, waited := false }, { result := .done }) := by
  simp only [State.disarmFound, h]

theorem State.disarmFound_done (h : c.state = .done) : s.disarmFound slot c =
    (s.modCue s.cst.editReel slot fun x => { x with state := .ready }, { result := .done }) := by
  simp only [State.disarmFound, h]

theorem State.disarmFound_passing {kind : ArmKind} (h : c.state = .passing kind) : s.disarmFound slot c =
    (s.modCue s.cst.editReel slot fun x => { x with pending := some { fields := c.pendingFields, disarm := true } },
      { result := .pending }) := by
  simp only [State.disarmFound, h]

end

end Sys2Proof.Machine

open Sys2Proof.Machine in
/-- Settles O33: the checks in order, then the state of the cue found. -/
theorem cueArmArmsTheCue : Obligations.CueArmArmsTheCue := by
  intro loop kind s hs
  refine ⟨_, rfl, ?_⟩
  intro i x
  refine cueChecks_inOrder (cmd := .arming) (f := withCue loop (State.armFound (if kind = 1 then .record else .rehearse)))
    (reelRefusal_arming _ _ _).mp (fun hbad => ?bad) (fun hgood => ?good) fun _ hg => withCue_inOrder hs hg fun p hp hg => ?_
  case bad =>
    by_cases hloop : 1 ≤ loop.toNat ∧ loop.toNat ≤ 9999
    · rw [armKindOf_of_gt (by omega)]
    · cases armKindOf kind with
      | none => rfl
      | some k => exact cueChecks_badField (loopOk_false hloop) _ s
  case good =>
    obtain ⟨hlo, hhi, hkind⟩ := not_not.mp hgood
    rw [armKindOf_of_le hkind, (loopOk_iff loop).mpr ⟨hlo, hhi⟩]
  intro c
  have hc : s.cue s.cst.editReel p.1 = some c := State.cue_of_found hs hp
  by_cases hpassing : c.state.isPassing = true
  · rw [if_pos hpassing]
    exact State.owner_refused (hg.trans (State.armFound_passing hpassing))
  rw [if_neg hpassing]
  rw [State.armFound_idle hpassing, armRefusal_eq] at hg
  generalize (if kind = 1 then ArmKind.record else .rehearse) = armed at hg ⊢
  split_ifs at hg ⊢
  · exact State.owner_refused hg
  · exact State.owner_refused hg
  · exact State.owner_refused hg
  · exact State.owner_modCue (edit := fun x => { x with state := .armed armed }) hc hg

open Sys2Proof.Machine in
/-- Settles O34: a command on a cue found changes its record, or, on a READY cue, nothing. -/
theorem cueDisarmAndProtect : Obligations.CueDisarmAndProtect := by
  intro loop value s hs
  refine ⟨⟨_, rfl, ?disarm⟩, _, rfl, ?protect⟩
  case disarm =>
    intro i x
    refine cueChecks_inOrder (cmd := .arming) (f := withCue loop State.disarmFound) (reelRefusal_arming _ _ _).mp
      (fun hbad => cueChecks_badField (loopOk_false hbad) _ s) (fun hgood => ?_) fun _ hg =>
        withCue_inOrder hs hg fun p hp hg => ?_
    · rw [(loopOk_iff loop).mpr (not_not.mp hgood)]
    obtain ⟨slot, c⟩ := p
    have hc : s.cue s.cst.editReel slot = some c := State.cue_of_found hs hp
    intro c changed
    refine ⟨fun h => ?ready, fun kind h => ?armed, fun h => ?done, fun kind h => ?passing⟩
    case ready => exact State.owner_unchanged hc (hg.trans (State.disarmFound_ready h))
    case armed => exact State.owner_modCue hc (hg.trans (State.disarmFound_armed h))
    case done => exact State.owner_modCue hc (hg.trans (State.disarmFound_done h))
    case passing => exact State.owner_modCue hc (hg.trans (State.disarmFound_passing h))
  case protect =>
    intro i
    refine cueChecks_inOrder (cmd := .protect) (f := withCue loop fun slot _ s =>
        (s.modCue s.cst.editReel slot fun x => { x with protect := decide (value = 1) }, { result := .done }))
      (reelRefusal_protect _ _ _).mp (fun hbad => ?bad) (fun hgood => ?good) fun _ hg =>
        withCue_inOrder hs hg fun p hp hg =>
          State.owner_modCue (edit := fun x => { x with protect := decide (value = 1) }) (State.cue_of_found hs hp) hg
    case bad =>
      by_cases hloop : 1 ≤ loop.toNat ∧ loop.toNat ≤ 9999
      · rw [onOffOf_of_gt (by omega)]
      · cases onOffOf value with
        | none => rfl
        | some on => exact cueChecks_badField (loopOk_false hloop) _ s
    case good =>
      obtain ⟨hlo, hhi, hvalue⟩ := not_not.mp hgood
      rw [onOffOf_of_le hvalue, (loopOk_iff loop).mpr ⟨hlo, hhi⟩]
end

section
/-! The results of CUE_WRITE and CUE_AMEND by their checks in order (R25, R26, R28 to R33). -/

namespace Sys2Proof

/-- The frame number of a valid label lies in the day (R65, R66). -/
theorem Label.number_lt_fDay {l : Label} {rate : Rate} (h : l.valid rate = true) : l.number rate < rate.fDay := by
  have hrange : l.inRange rate.fps = true := (Bool.and_eq_true _ _ ▸ h).1
  simp only [Label.inRange, Bool.and_eq_true, decide_eq_true_eq] at hrange
  obtain ⟨⟨⟨hh, mm⟩, ss⟩, ff⟩ := hrange
  cases rate <;> simp only [Label.number, Rate.isDrop, Rate.fps, Rate.fDay, if_true, Bool.false_eq_true, if_false] at ff ⊢ <;>
    omega

end Sys2Proof

namespace Sys2Proof.Machine

theorem Label.frame_of_invalid {l : Label} {rate : Rate} (h : l.valid rate = false) : l.frame rate = none :=
  if_neg (by simp [h])

/-! ## CUE_WRITE -/

/-- A reel of fewer than 160 cues has a free slot (R1). -/
theorem Reel.freeSlot_of_lt {r : Reel} (h : r.cues.length < 160) : ∃ slot, r.freeSlot = some slot := by
  by_contra hnone
  have hall : List.range 160 ⊆ r.cues.map Prod.fst := fun k hk => by
    have hfull : r.freeSlot = none := Option.eq_none_iff_forall_ne_some.mpr fun slot e => hnone ⟨slot, e⟩
    have := List.find?_eq_none.mp hfull k hk
    rwa [← r.cue_none_iff, ← ne_eq, ← Option.isSome_iff_ne_none, Reel.cue_isSome_iff] at this
  have := (List.nodup_range.subperm hall).length_le
  rw [List.length_range, List.length_map] at this
  omega

section
variable {loop : Nat} {f : CueFields} {mode : Mode} {s : State}

theorem State.writeChecked_badTimecode (h : f.inPt.valid s.pos.rate = false ∨ f.outPt.valid s.pos.rate = false) :
    s.writeChecked loop f mode = refuse .badTimecode s := by
  unfold State.writeChecked
  rcases h with h | h
  · rw [Label.frame_of_invalid h]
  · rw [Label.frame_of_invalid h]
    cases f.inPt.frame s.pos.rate <;> rfl

/-- Check 4 of CUE_WRITE, where both labels are valid (R30). -/
theorem State.writeChecked_of_valid (hin : f.inPt.valid s.pos.rate = true) (hout : f.outPt.valid s.pos.rate = true) :
    s.writeChecked loop f mode =
      if f.inPt.number s.pos.rate < f.outPt.number s.pos.rate then
        s.writeCue loop (storedVals f (f.inPt.number s.pos.rate) (f.outPt.number s.pos.rate) mode) (writeClamped f)
      else refuse .badField s := by
  simp only [State.writeChecked, Label.frame_of_valid hin, Label.frame_of_valid hout]

theorem State.writeCue_duplicate {v : CueVals} {clamped : Bool} (h : ∃ p ∈ s.editReel.cues, p.2.loop = loop) :
    s.writeCue loop v clamped = refuse .duplicateLoop s := by
  refine if_pos ?_
  rw [Reel.slotOf, Option.isSome_map, List.find?_isSome]
  simpa using h

theorem State.writeCue_full {v : CueVals} {clamped : Bool} (hnew : ¬ ∃ p ∈ s.editReel.cues, p.2.loop = loop)
    (h : 160 ≤ s.editReel.cues.length) : s.writeCue loop v clamped = refuse .reelFull s := by
  refine (if_neg ?_).trans (if_pos h)
  rw [Reel.slotOf, Option.isSome_map, List.find?_isSome]
  simpa using hnew

end

/-! ## CUE_AMEND -/

theorem optFrame_of_invalid {rate : Rate} {l : Option Label} (h : l.any (fun l => !l.valid rate) = true) :
    optFrame rate l = none := by
  cases l with
  | none => cases h
  | some l => rw [optFrame, Label.frame_of_invalid (by simpa using h)]; rfl

theorem optMode_of_gt {m : Option Byte} (h : m.any (fun m => 1 < m.toNat) = true) : optMode m = none := by
  cases m with
  | none => cases h
  | some m => rw [optMode, modeOf_of_gt (by simpa using h)]; rfl

/-- An optional value that is not present and out of range is absent or in range. -/
theorem all_of_not_any {α : Type} {p q : α → Bool} {o : Option α} (hpq : ∀ a, p a = false → q a = true)
    (h : ¬ o.any p = true) : o.all q = true := by
  cases o with
  | none => rfl
  | some a => exact hpq a (by simpa using h)

section
variable {loop : BitVec 16} {f : AmendFields} {mode : Option Mode} {s : State}

theorem State.amendChecked_badTimecode
    (h : f.inPt.any (fun l => !l.valid s.pos.rate) = true ∨ f.outPt.any (fun l => !l.valid s.pos.rate) = true) :
    s.amendChecked loop f mode = refuse .badTimecode s := by
  unfold State.amendChecked
  rcases h with h | h
  · rw [optFrame_of_invalid h]
  · rw [optFrame_of_invalid h]
    cases optFrame s.pos.rate f.inPt <;> rfl

/-- Check 4 of CUE_AMEND, where the labels given are valid (R32). -/
theorem State.amendChecked_of_valid (hin : f.inPt.all (fun l => l.valid s.pos.rate) = true)
    (hout : f.outPt.all (fun l => l.valid s.pos.rate) = true) : s.amendChecked loop f mode =
      withCue loop (State.amendFound f (amendGiven f (f.inPt.map fun l => l.number s.pos.rate)
        (f.outPt.map fun l => l.number s.pos.rate) mode)) s := by
  simp only [State.amendChecked, optFrame_of_valid hin, optFrame_of_valid hout]

end

/-- A frame the cue will run on: that of the label given, or the one it would run on without the amend (R33). -/
theorem getD_map_eq_elim {α β : Type} (g : α → β) (o : Option α) (b : β) : (o.map g).getD b = o.elim b g := by
  cases o <;> rfl

/-- An accepted amend raises nothing, and is answered PENDING on a PASSING cue. -/
theorem State.amendCue_answered {i : Instr} {g : State → State × Reply} {slot : Nat} {c : Cue} {e : EditVals}
    {clamped : Bool} {s : State} (hg : g s = s.amendCue slot c e clamped) :
    Answered i (if c.state.isPassing then .pending else if clamped then .adjusted else .done) .nothing [] s (s.owner i g) := by
  unfold State.amendCue at hg
  by_cases hp : c.state.isPassing = true
  · rw [if_pos hp] at hg ⊢
    exact State.owner_answers hg (Noticed.of_lnk rfl rfl rfl)
  · rw [if_neg hp, doneOr] at hg
    rw [if_neg hp]
    exact State.owner_answers hg (Noticed.of_lnk (by simp) (by simp) (by simp))

/-- A given value is brought into range exactly when it lies outside. -/
theorem not_unclamped_eq {w : Nat} {clamp : Nat → Nat} {out : BitVec w → Bool}
    (h : ∀ v : BitVec w, clamp v.toNat = v.toNat ↔ out v = false) (o : Option (BitVec w)) :
    (!unclamped clamp (o.map BitVec.toNat)) = o.any out := by
  cases o with
  | none => rfl
  | some v =>
    show (!(clamp v.toNat == v.toNat)) = out v
    rw [Bool.eq_iff_iff]
    simp [h]

/-- An amend brings a value into range in the words of Table 2-2 (R28, R29). -/
theorem amendClamped_eq (f : AmendFields) (run : CueVals) : amendClamped f run =
    (f.beeps.any (fun v => 4 < v.toNat) || f.spacing.any (fun v => v.toNat < 6 || 60 < v.toNat)
      || decide (run.spacing * 80 < run.onTime) || f.tone.any (fun v => v.toNat < 23 || 239 < v.toNat)
      || f.streamer.any (fun v => (1 ≤ v.toNat && v.toNat ≤ 11) || 240 < v.toNat)
      || f.colour.any (fun v => 7 < v.toNat) || f.tail.any (fun v => 240 < v.toNat)) := by
  unfold amendClamped
  rw [not_unclamped_eq (out := fun v => 4 < v.toNat), not_unclamped_eq (out := fun v => v.toNat < 6 || 60 < v.toNat),
    not_unclamped_eq (out := fun v => v.toNat < 23 || 239 < v.toNat),
    not_unclamped_eq (out := fun v => (1 ≤ v.toNat && v.toNat ≤ 11) || 240 < v.toNat),
    not_unclamped_eq (out := fun v => 7 < v.toNat), not_unclamped_eq (out := fun v => 240 < v.toNat)]
  · simp only [onTimeLimit, Config.ticksPerFrame]
    ac_rfl
  all_goals
    intro v
    simp only [clampBeeps_eq, clampSpacing_eq, clampTone_eq, clampStreamer_eq, clampColour_eq, clampTail_eq,
      Bool.or_eq_false_iff, Bool.and_eq_false_iff, decide_eq_false_iff_not]
    split_ifs <;> omega

end Sys2Proof.Machine

open Sys2Proof.Machine in
/-- Settles O30: the checks are made of the values the cue will run on, and an accepted amend is answered by the state of the
cue. -/
theorem cueAmendChecksInOrder : Obligations.CueAmendChecksInOrder := by
  intro loop reserved f s hs
  refine ⟨_, rfl, ?_⟩
  intro i x frame
  refine cueChecks_inOrder (cmd := .edit) (f := State.amendChecked loop f (f.mode.map fun m => if m = 0 then .once else .cycle))
    (reelRefusal_edit _ _ _).mp (fun hbad => ?bad) (fun hgood => ?good) fun _ hg => ?_
  case bad =>
    by_cases hmode : f.mode.any (fun m => 1 < m.toNat) = true
    · rw [optMode_of_gt hmode]
    · cases optMode f.mode with
      | none => rfl
      | some mode =>
        refine cueChecks_badField ?_ _ s
        rcases hbad with h | h | h | h
        · simp [loopOk_false h]
        · rw [decide_eq_false h]; simp
        · simp [h]
        · exact absurd h hmode
  case good =>
    simp only [not_or, not_not, Bool.not_eq_false] at hgood
    obtain ⟨hloop, hreserved, hnames, hmode⟩ := hgood
    rw [optMode_of_le (all_of_not_any (by simp) hmode), (loopOk_iff loop).mpr hloop, hreserved, hnames]
    rfl
  by_cases hlabels : f.inPt.any (fun l => !l.valid s.pos.rate) = true ∨ f.outPt.any (fun l => !l.valid s.pos.rate) = true
  · rw [if_pos hlabels]
    exact State.owner_refused (hg.trans (State.amendChecked_badTimecode hlabels))
  rw [if_neg hlabels]
  obtain ⟨hin, hout⟩ := not_or.mp hlabels
  rw [State.amendChecked_of_valid (all_of_not_any (by simp) hin) (all_of_not_any (by simp) hout)] at hg
  refine withCue_inOrder hs hg fun p hp hg => ?_
  intro c run inPt outPt lines spacing onTime clamped
  let given := amendGiven f (f.inPt.map fun l => l.number s.pos.rate) (f.outPt.map fun l => l.number s.pos.rate)
    (f.mode.map fun m => if m = 0 then .once else .cycle)
  have hin : (given.over run).inPt = inPt := getD_map_eq_elim _ f.inPt _
  have hout : (given.over run).outPt = outPt := getD_map_eq_elim _ f.outPt _
  have hclamped : amendClamped f (given.over run) = clamped := amendClamped_eq f _
  rw [State.amendFound, EditVals.over_merge] at hg
  by_cases hprot : c.protect = true
  · rw [if_pos hprot] at hg ⊢
    exact State.owner_refused hg
  rw [if_neg hprot] at hg ⊢
  by_cases horder : outPt ≤ inPt
  · rw [if_pos horder]
    rw [← hout, ← hin] at horder
    exact State.owner_refused (hg.trans (if_pos horder))
  rw [if_neg horder]
  rw [← hout, ← hin] at horder
  replace hg := hg.trans (if_neg horder)
  by_cases hlines : c.state.kind = some .record ∧ lines = 0
  · rw [if_pos hlines]
    exact State.owner_refused (hg.trans (if_pos hlines))
  rw [if_neg hlines, ← hclamped]
  exact State.amendCue_answered (hg.trans (if_neg hlines))

open Sys2Proof.Machine in
/-- Settles O28: each check refuses, and a reel with room has a slot for the cue. -/
theorem cueWriteChecksInOrder : Obligations.CueWriteChecksInOrder := by
  intro loop f s
  refine ⟨_, rfl, ?_⟩
  intro refused x
  refine cueChecks_inOrder (cmd := .edit) (f := State.writeChecked loop.toNat f (if f.mode = 0 then .once else .cycle))
    (reelRefusal_edit _ _ _).mp (fun hbad => ?bad) (fun hgood => ?good) fun _ hg => ?_
  case bad =>
    by_cases hloop : 1 ≤ loop.toNat ∧ loop.toNat ≤ 9999
    · rw [modeOf_of_gt (by omega)]
    · cases modeOf f.mode with
      | none => rfl
      | some mode => exact cueChecks_badField (loopOk_false hloop) _ s
  case good =>
    obtain ⟨hlo, hhi, hmode⟩ := not_not.mp hgood
    rw [modeOf_of_le hmode, (loopOk_iff loop).mpr ⟨hlo, hhi⟩]
  by_cases hlabels : f.inPt.valid s.pos.rate = false ∨ f.outPt.valid s.pos.rate = false
  · rw [if_pos hlabels]
    exact State.owner_refused (hg.trans (State.writeChecked_badTimecode hlabels))
  rw [if_neg hlabels]
  obtain ⟨hin, hout⟩ : f.inPt.valid s.pos.rate = true ∧ f.outPt.valid s.pos.rate = true := by simpa using hlabels
  rw [State.writeChecked_of_valid hin hout] at hg
  by_cases horder : f.inPt.number s.pos.rate < f.outPt.number s.pos.rate
  swap
  · rw [if_pos (Nat.not_lt.mp horder)]
    exact State.owner_refused (hg.trans (if_neg horder))
  rw [if_pos horder] at hg
  rw [if_neg (Nat.not_le.mpr horder)]
  by_cases hdup : ∃ p ∈ s.editReel.cues, p.2.loop = loop.toNat
  · rw [if_pos hdup]
    exact State.owner_refused (hg.trans (State.writeCue_duplicate hdup))
  rw [if_neg hdup]
  by_cases hfull : 160 ≤ s.editReel.cues.length
  · rw [if_pos hfull]
    exact State.owner_refused (hg.trans (State.writeCue_full hdup hfull))
  rw [if_neg hfull]
  obtain ⟨slot, hslot⟩ := Reel.freeSlot_of_lt (Nat.not_le.mp hfull)
  rw [State.writeCue_eq _ _ (fun p hp e => hdup ⟨p, hp, e⟩) (Nat.not_le.mp hfull) hslot, doneOr] at hg
  exact ⟨horder, Sys2Proof.Label.number_lt_fDay hout,
    State.owner_answers hg ((State.modReel_noticed _ _ _).trans (State.markIfPlay_noticed _ _))⟩
end

section
/-! REEL_CLEAR, REEL_SHIFT, REEL_COPY and REEL_RESUME (R48, R49, R52, R53, R59, R60): the checks of a command one after the
other, and the reels that its effect leaves. -/

namespace Sys2Proof.Machine

/-! ## The checks of a command, one after the other -/

section
variable {i : Instr} {g : State → State × Reply} {s : State} {r : Result}

/-- One check of a command: `rest` gives the account `A` of the command where the check passes. -/
theorem State.owner_check {p bad A : Prop} [Decidable p] [Decidable bad] {work : State × Reply}
    (hg : g s = if p then refuse r s else work) (hp : p ↔ bad) (rest : ¬ bad → g s = work → A) :
    if bad then Refused i r s (s.owner i g) else A := by
  split_ifs with hb
  · exact State.owner_refused (hg.trans (if_pos (hp.mpr hb)))
  · exact rest hb (hg.trans (if_neg (mt hp.mp hb)))

/-- A command that has nothing to do on an EMPTY reel, or wherever else `p` holds. -/
theorem State.owner_idle_check {p A : Prop} [Decidable p] {work : State × Reply}
    (hg : g s = if p then (s, { result := r }) else work) (rest : ¬ p → g s = work → A) :
    if p then (s.owner i g).apart = s.apart ∧ Answered i r .nothing [] s (s.owner i g) else A := by
  split_ifs with hp
  · rw [State.owner_eq (hg.trans (if_pos hp))]
    exact ⟨State.answers_apart .., State.answers_answered (Noticed.refl s)⟩
  · exact rest hp (hg.trans (if_neg hp))

end

/-! ## REEL_CLEAR -/

theorem Reel.anyPassing_iff (x : Reel) : x.anyPassing = true ↔ ∃ p ∈ x.cues, p.2.state.isPassing = true :=
  List.any_eq_true

/-- The release of a source changes nothing but reels. -/
theorem State.releaseSource_eq (conform : Option ConformRecord) (s : State) :
    ∃ reels, s.releaseSource conform = { s with cst := { s.cst with reels := reels } } := by
  unfold State.releaseSource
  split <;> exact ⟨_, rfl⟩

/-- The source that a conform record names becomes OPEN. -/
theorem State.releaseSource_reel (conform : Option ConformRecord) (s : State) (r : Fin 8) :
    (s.releaseSource conform).reel r =
      if conform.map (fun c => c.op) = some (.copy r) then { s.reel r with state := .opened } else s.reel r := by
  rcases conform with _ | ⟨_ | source, delta, cursor⟩
  · rfl
  · rfl
  · simp only [State.releaseSource, State.reel_modReel, Option.map_some, Option.some.injEq, ConformOp.copy.injEq]
    by_cases h : source = r
    · rw [if_pos h, if_pos h.symm, h]
    · rw [if_neg h, if_neg (Ne.symm h)]

theorem State.markIfPlay_eq (r : Fin 8) (s : State) : s.markIfPlay r =
    { s with psc := { s.psc with refind := s.psc.refind || decide (r = s.cst.playReel) } } := by
  unfold State.markIfPlay
  by_cases h : r = s.cst.playReel <;> simp [h]

/-- A clear changes nothing but reels and the re-find mark, which it sets where the reel held cues. -/
theorem State.clearReel_eq (r : Fin 8) (s : State) : ∃ reels, s.clearReel r =
    { s with cst := { s.cst with reels := reels }
             psc := { s.psc with
               refind := s.psc.refind || (decide (r = s.cst.playReel) && !(s.reel r).cues.isEmpty) } } := by
  obtain ⟨reels, h⟩ := State.releaseSource_eq (s.reel r).conform (s.modReel r Reel.cleared)
  refine ⟨reels, ?_⟩
  simp only [State.clearReel, h]
  split
  · next hempty => simp [hempty, State.modReel]
  · next hcues => simp [hcues, State.markIfPlay_eq, State.modReel]

theorem State.clearReel_onlyReels (r : Fin 8) (s : State) :
    OnlyReels (s.psc.refind || (decide (r = s.cst.playReel) && !(s.reel r).cues.isEmpty)) s (s.clearReel r) := by
  obtain ⟨reels, h⟩ := s.clearReel_eq r
  rw [OnlyReels, h]

theorem State.clearReel_noticed (r : Fin 8) (s : State) : Noticed [] s (s.clearReel r) := by
  obtain ⟨reels, h⟩ := s.clearReel_eq r
  rw [h]
  exact Noticed.of_lnk rfl rfl rfl

/-- The reels after a clear: the reel is emptied, then the source of its conform record released (R60). -/
theorem State.clearReel_reel (r r' : Fin 8) (s : State) : (s.clearReel r).reel r' =
    let x := if r' = r then (s.reel r).cleared else s.reel r'
    if (s.reel r).conform.map (fun c => c.op) = some (.copy r') then { x with state := .opened } else x := by
  have hmark : (s.clearReel r).reel r' = ((s.modReel r Reel.cleared).releaseSource (s.reel r).conform).reel r' := by
    simp only [State.clearReel]
    split
    · rfl
    · rw [State.markIfPlay_reel]
  rw [hmark, State.releaseSource_reel, State.reel_modReel]

/-- The work of REEL_CLEAR, as a chain of checks (R60). -/
theorem execReelClear_owner (s : State) : ∃ g, exec .reelClear s = .next (s.owner .reelClear g) ∧ g s =
    if s.editReel.state = .conforming ∨ s.editReel.state = .locked then refuse .reelBusy s
    else if s.editReel.state = .empty then (s, { result := .done })
    else if s.editReel.anyPassing then refuse .passActive s
    else (s.clearReel s.cst.editReel, { result := .done }) := by
  refine ⟨_, rfl, ?_⟩
  dsimp only
  cases s.editReel.state <;> rfl

/-! ## The start of an operation -/

/-- The bound on a delta, in whole numbers (R48). -/
theorem deltaOk_iff (rate : Rate) (delta : Int) :
    deltaOk rate delta = true ↔ (delta.natAbs : Int) ≤ (rate.fDay : Int) - 1 := by
  have : 0 < rate.fDay := by cases rate <;> decide
  rw [deltaOk, decide_eq_true_iff]
  omega

/-- The range pre-check fails on a header point that the delta takes out of the day (R48). -/
theorem not_inDay_iff (rate : Rate) (delta : Int) (x : Reel) : (!inDay rate delta x) = true ↔
    x.earliest.any (fun a => decide ((a : Int) + delta < 0)) = true
      ∨ x.latest.any (fun b => decide ((rate.fDay : Int) - 1 < (b : Int) + delta)) = true := by
  rw [inDay, Bool.not_and, Bool.or_eq_true]
  cases x.earliest <;> cases x.latest <;> simp

/-- The reels after the start of an operation: its target is CONFORMING and holds the record (R47). -/
theorem State.startConform_reel (op : ConformOp) (target : Fin 8) (delta : Int) (s : State) (r : Fin 8) :
    (s.startConform op target delta).reel r =
      if r = target then
        { s.reel r with state := .conforming, conform := some { op := op, delta := delta, cursor := 0 } }
      else s.reel r := by
  refine (State.reel_modReel target r (fun x =>
    { x with state := .conforming, conform := some { op := op, delta := delta, cursor := 0 } }) s).trans ?_
  by_cases h : r = target
  · rw [if_pos h, if_pos h, h]
  · rw [if_neg h, if_neg h]

theorem State.startConform_noticed (op : ConformOp) (target : Fin 8) (delta : Int) (s : State) :
    Noticed [] s (s.startConform op target delta) :=
  Noticed.of_lnk rfl rfl rfl

theorem reelOf_eq_some_iff (code : Byte) (r : Fin 8) : reelOf code = some r ↔ code.toNat = r.val := by
  unfold reelOf
  split
  · rw [Option.some.injEq, Fin.ext_iff]
  · simp only [reduceCtorEq, false_iff]
    omega

/-- The work of REEL_COPY, once its fields are judged (R48, R52). -/
theorem execReelCopy_owner (source dest : Byte) (delta : BitVec 32) (s : State) :
    ∃ g, exec (.reelCopy source dest delta) s = .next (s.owner (.reelCopy source dest delta) g)
      ∧ (¬ (source.toNat ≤ 7 ∧ dest.toNat ≤ 7 ∧ source ≠ dest
            ∧ (delta.toInt.natAbs : Int) ≤ (s.pos.rate.fDay : Int) - 1) →
          g s = refuse .badField s)
      ∧ ∀ a b, reelOf source = some a → reelOf dest = some b → source ≠ dest →
          (delta.toInt.natAbs : Int) ≤ (s.pos.rate.fDay : Int) - 1 → a ≠ b ∧ g s = s.startCopy a b delta.toInt := by
  have hne {a b : Fin 8} (ha : reelOf source = some a) (hb : reelOf dest = some b) : a ≠ b ↔ source ≠ dest := by
    rw [reelOf_eq_some_iff] at ha hb
    rw [ne_eq, ne_eq, Fin.ext_iff, ← ha, ← hb, BitVec.toNat_inj]
  refine ⟨_, rfl, fun hbad => ?refused, fun a b ha hb hsd hd => ?started⟩
  case started =>
    have hab := (hne ha hb).mpr hsd
    refine ⟨hab, ?_⟩
    simp only [ha, hb]
    exact if_pos ⟨hab, (deltaOk_iff _ _).mpr hd⟩
  case refused =>
    cases ha : reelOf source with
    | none => rfl
    | some a =>
      cases hb : reelOf dest with
      | none => rfl
      | some b =>
        refine if_neg fun ⟨hab, hd⟩ => hbad ⟨?_, ?_, (hne ha hb).mp hab, (deltaOk_iff _ _).mp hd⟩
        · have := (reelOf_eq_some_iff _ _).mp ha; omega
        · have := (reelOf_eq_some_iff _ _).mp hb; omega

end Sys2Proof.Machine

open Sys2Proof.Machine in
/-- Settles O27: the state of the reel and its PASSING cues decide, and a clear changes the reel and the source it held. -/
theorem reelClearEmptiesTheReel : Obligations.ReelClearEmptiesTheReel := by
  intro s
  obtain ⟨g, hexec, hg⟩ := execReelClear_owner s
  refine ⟨_, hexec, ?_⟩
  intro e x
  refine State.owner_check hg Iff.rfl fun _ hg => ?_
  refine State.owner_idle_check hg fun _ hg => ?_
  refine State.owner_check hg x.anyPassing_iff fun _ hg => ?_
  rw [State.owner_eq hg]
  refine ⟨?_, State.answers_answered (s.clearReel_noticed e), fun r => ?_⟩
  · rw [OnlyReels, State.answers_apart, State.answers_cst]
    exact s.clearReel_onlyReels e
  · rw [State.answers_reel, State.clearReel_reel]
    split_ifs with hsource hr
    · exact ⟨rfl, fun h => absurd hr h⟩
    · exact ⟨rfl, fun _ => rfl⟩
    · rfl
    · rfl

open Sys2Proof.Machine in
/-- Settles O38: the fields are judged first, then the checks in order; the destination differs from the source. -/
theorem reelCopyStarts : Obligations.ReelCopyStarts := by
  intro source dest delta s
  obtain ⟨g, hexec, hbad, hgood⟩ := execReelCopy_owner source dest delta s
  refine ⟨_, hexec, ?_⟩
  intro i d last
  by_cases hfields : source.toNat ≤ 7 ∧ dest.toNat ≤ 7 ∧ source ≠ dest ∧ (d.natAbs : Int) ≤ last
  swap
  · rw [if_pos hfields]
    exact State.owner_refused (hbad hfields)
  rw [if_neg (not_not.mpr hfields)]
  intro a b ha hb x
  obtain ⟨-, -, hsd, hd⟩ := hfields
  obtain ⟨hab, hg⟩ := hgood a b ha hb hsd hd
  refine State.owner_check hg Iff.rfl fun _ hg => ?_
  refine State.owner_check hg Iff.rfl fun _ hg => ?_
  refine State.owner_check hg Iff.rfl fun _ hg => ?_
  refine State.owner_check hg Iff.rfl fun _ hg => ?_
  refine State.owner_check hg Iff.rfl fun _ hg => ?_
  refine State.owner_check hg (not_inDay_iff _ _ _) fun _ hg => ?_
  refine State.owner_idle_check hg fun _ hg => ?_
  rw [State.owner_eq hg]
  let u := s.modReel a fun r => { r with state := .locked }
  refine ⟨?_, ?_, ?_, fun r hra hrb => ?_,
    State.answers_answered ((s.modReel_noticed a _).trans (u.startConform_noticed (.copy a) b d))⟩
  · rw [State.answers_apart, State.answers_cst]; rfl
  · rw [State.answers_reel, State.startConform_reel, if_neg hab, State.reel_modReel, if_pos rfl]
  · rw [State.answers_reel, State.startConform_reel, if_pos rfl, State.reel_modReel, if_neg hab.symm]
  · rw [State.answers_reel, State.startConform_reel, if_neg hrb, State.reel_modReel, if_neg hra]

open Sys2Proof.Machine in
/-- Settles O36: each command by its checks in order; a shift flags the cues before the unit takes the operation. -/
theorem shiftsStartAndConformsResume : Obligations.ShiftsStartAndConformsResume := by
  intro delta s
  refine ⟨⟨_, rfl, ?shift⟩, _, rfl, ?resume⟩
  case shift =>
    intro i d e x last
    refine State.owner_check (work := s.startShift d) ?fields (p := ¬ deltaOk s.pos.rate d = true)
      ((not_congr (deltaOk_iff _ _)).trans not_le) fun _ hg => ?_
    case fields => exact (ite_not ..).symm
    refine State.owner_check hg Iff.rfl fun _ hg => ?_
    refine State.owner_check hg Iff.rfl fun _ hg => ?_
    refine State.owner_check hg Iff.rfl fun _ hg => ?_
    refine State.owner_check hg x.anyPassing_iff fun _ hg => ?_
    refine State.owner_check hg (not_inDay_iff _ _ _) fun _ hg => ?_
    refine State.owner_idle_check hg fun _ hg => ?_
    rw [State.owner_eq hg]
    let u := (s.modReel e Reel.flagAll).startConform .shift e d
    have hnoticed : Noticed [] s (u.markIfPlay e) :=
      ((s.modReel_noticed e Reel.flagAll).trans (State.startConform_noticed .shift e d _)).trans (u.markIfPlay_noticed e)
    refine ⟨?_, ⟨?_, fun r hr => ?_⟩, State.answers_answered hnoticed⟩
    · rw [State.answers_apart, State.answers_cst, State.markIfPlay_eq]; rfl
    · rw [State.answers_reel, State.markIfPlay_reel, State.startConform_reel, if_pos rfl, State.reel_modReel, if_pos rfl]
      rfl
    · rw [State.answers_reel, State.markIfPlay_reel, State.startConform_reel, if_neg hr, State.reel_modReel, if_neg hr]
  case resume =>
    intro e x
    refine State.owner_check rfl Iff.rfl fun _ hg => ?_
    refine State.owner_check hg Iff.rfl fun _ hg => ?_
    by_cases hpartly : x.state = .partly
    · rw [if_neg (not_not.mpr hpartly)]
      intro c hc
      simp only [show s.editReel.state = _ from hpartly, show s.editReel.conform = _ from hc] at hg
      rw [State.owner_eq hg]
      refine ⟨?_, ⟨?_, fun r hr => ?_⟩, State.answers_answered (Noticed.of_lnk rfl rfl rfl)⟩
      · rw [State.answers_apart, State.answers_cst]; rfl
      · rw [State.answers_reel]
        exact (State.reel_modReel e e (fun x => { x with state := .conforming }) s).trans (if_pos rfl)
      · rw [State.answers_reel]
        exact (State.reel_modReel e r (fun x => { x with state := .conforming }) s).trans (if_neg hr)
    · rw [if_pos hpartly]
      refine State.owner_refused (hg.trans ?_)
      split
      · next h _ => exact absurd h hpartly
      · rfl
end

section
/-! What the commands and events of the other blocks leave of the Position Reader, the Punch Unit and the Count-In Unit. -/

namespace Sys2Proof.Machine

/-- The Position Reader, the Punch Unit and the Count-In Unit: the blocks whose laws stand apart from the Cue Store and from
the passes. -/
def State.blocks (s : State) : Pos × Pch × Ciu := (s.pos, s.pch, s.ciu)

theorem State.fields_of_blocks {s t : State} (h : t.blocks = s.blocks) : t.pos = s.pos ∧ t.pch = s.pch ∧ t.ciu = s.ciu := by
  simpa [State.blocks] using h

/-! ## The shared operations -/

@[simp] theorem State.transmit_blocks (s : State) : s.transmit.blocks = s.blocks := by simp [State.blocks]
@[simp] theorem State.raise_blocks (n : Notice) (s : State) : (s.raise n).blocks = s.blocks := by simp [State.blocks]
@[simp] theorem State.post_blocks (es : List Instr) (s : State) : (s.post es).blocks = s.blocks := rfl
@[simp] theorem State.taken_blocks (i : Instr) (s : State) : (s.taken i).blocks = s.blocks := rfl
@[simp] theorem State.modReel_blocks (r : Fin 8) (f : Reel → Reel) (s : State) : (s.modReel r f).blocks = s.blocks := rfl
@[simp] theorem State.modCue_blocks (r : Fin 8) (slot : Nat) (f : Cue → Cue) (s : State) :
    (s.modCue r slot f).blocks = s.blocks := rfl
@[simp] theorem State.markIfPlay_blocks (r : Fin 8) (s : State) : (s.markIfPlay r).blocks = s.blocks := by
  simp [State.blocks]
@[simp] theorem State.applyVals_blocks (r : Fin 8) (slot : Nat) (c : Cue) (v : CueVals) (s : State) :
    (s.applyVals r slot c v).blocks = s.blocks := by simp [State.blocks]
@[simp] theorem State.setCtx_blocks (k : Fin 4) (c : Option Ctx) (s : State) : (s.setCtx k c).blocks = s.blocks := rfl
@[simp] theorem State.setPointer_blocks (p : Option Nat) (s : State) : (s.setPointer p).blocks = s.blocks := rfl
@[simp] theorem State.setRx_blocks (rx : Rx) (s : State) : (s.setRx rx).blocks = s.blocks := rfl
@[simp] theorem State.markWhere_blocks (on : Bool) (s : State) : (s.markWhere on).blocks = s.blocks := rfl
@[simp] theorem State.owner_blocks (i : Instr) (f : State → State × Reply) (s : State) :
    (s.owner i f).blocks = (f s).1.blocks := by simp [State.blocks]

/-- What taking in turn leaves, where the block's own work leaves it. -/
theorem State.takeInTurn_blocks (i : Instr) {f : State → State} (hf : ∀ x, (f x).blocks = x.blocks) (s : State) :
    (s.takeInTurn i f).blocks = s.blocks :=
  State.takeInTurn_keeps State.blocks i f s hf rfl

/-- Work done for each member of a list leaves what one piece of it leaves. -/
theorem State.foldl_blocks {α : Type} {f : State → α → State} (hf : ∀ s a, (f s a).blocks = s.blocks) (l : List α) (s : State) :
    (l.foldl f s).blocks = s.blocks := by
  induction l generalizing s with
  | nil => rfl
  | cons a l ih => rw [List.foldl_cons, ih, hf]

/-! ## The passes -/

@[simp] theorem State.settleCue_blocks (b : Bool) (r : Fin 8) (slot : Nat) (s : State) :
    (s.settleCue b r slot).blocks = s.blocks := by
  unfold State.settleCue; split <;> simp

@[simp] theorem State.abortTake_blocks (c : Ctx) (s : State) : (s.abortTake c).blocks = s.blocks := by
  unfold State.abortTake; split <;> simp

@[simp] theorem State.freeCtx_blocks (k : Fin 4) (s : State) : (s.freeCtx k).blocks = s.blocks := rfl

@[simp] theorem State.raiseEnd_blocks (k : Fin 4) (c : Ctx) (o : PassOutcome) (x : Option Take) (s : State) :
    (s.raiseEnd k c o x).blocks = s.blocks := State.raise_blocks _ s

@[simp] theorem State.switchPlay_blocks (r : Fin 8) (s : State) : (s.switchPlay r).blocks = s.blocks := State.raise_blocks _ _

@[simp] theorem State.applyPendingPlay_blocks (s : State) : s.applyPendingPlay.blocks = s.blocks := by
  unfold State.applyPendingPlay; split <;> simp

@[simp] theorem State.abortCtx_blocks (cause : AbortCause) (k : Fin 4) (s : State) : (s.abortCtx cause k).blocks = s.blocks := by
  unfold State.abortCtx; split <;> simp

@[simp] theorem State.retireCtx_blocks (k : Fin 4) (s : State) : (s.retireCtx k).blocks = s.blocks := by
  unfold State.retireCtx; split <;> simp

@[simp] theorem State.closeCtx_blocks (k : Fin 4) (s : State) : (s.closeCtx k).blocks = s.blocks := by
  unfold State.closeCtx; split <;> simp

@[simp] theorem State.abortAll_blocks (cause : AbortCause) (ks : List (Fin 4)) (s : State) :
    (s.abortAll cause ks).blocks = s.blocks :=
  State.foldl_blocks (fun s k => s.abortCtx_blocks cause k) ks s

/-! ## The work of a frame edge -/

theorem State.testLate_blocks (n : Nat) (s : State) (slot : Nat) : (s.testLate n slot).blocks = s.blocks := by
  unfold State.testLate
  dsimp only
  split
  · rfl
  · split <;> simp

theorem State.testPassed_blocks (s : State) (slot : Nat) : (s.testPassed slot).blocks = s.blocks := by
  unfold State.testPassed
  dsimp only
  split
  · rfl
  · split <;> simp

@[simp] theorem State.pointerWork_blocks (e : FrameEdge) (s : State) : (s.pointerWork e).blocks = s.blocks := by
  unfold State.pointerWork
  split
  · exact State.foldl_blocks (State.testLate_blocks e.n) _ _
  · split
    · unfold State.movePointer
      split
      · exact State.foldl_blocks State.testPassed_blocks _ _
      · rfl
    · rfl

@[simp] theorem State.reserve_blocks (k : Fin 4) (c : Ctx) (cue : Cue) (s : State) : (s.reserve k c cue).blocks = s.blocks := by
  unfold State.reserve; split <;> simp

@[simp] theorem State.stageOut_blocks (k : Fin 4) (c : Ctx) (v : CueVals) (s : State) :
    (State.stageOut k c v s).blocks = s.blocks := by
  simp [State.stageOut]

@[simp] theorem State.closeTake_blocks (c : Ctx) (v : CueVals) (s : State) :
    (State.closeTake c v s).blocks = s.blocks := by
  unfold State.closeTake; split <;> simp

@[simp] theorem State.recordWork_blocks (k : Fin 4) (c : Ctx) (cue : Cue) (n : Nat) (s : State) :
    (State.recordWork k c cue n s).blocks = s.blocks := by
  unfold State.recordWork
  split
  · rfl
  · split
    · simp
    · split <;> split <;> simp

theorem State.phaseWork_blocks (n : Nat) (s : State) (k : Fin 4) : (s.phaseWork n k).blocks = s.blocks := by
  unfold State.phaseWork
  split
  · rfl
  · split
    · rfl
    · dsimp only; split <;> simp

theorem State.serve_blocks (n : Nat) (served : List Nat) (s : State) (slot : Nat) : (s.serve n served slot).blocks = s.blocks := by
  unfold State.serve State.enter
  split
  · rfl
  · split
    · split
      · split
        · rfl
        · dsimp only; split <;> simp
      · rfl
    · rfl

@[simp] theorem State.edgeRuns_blocks (n : Nat) (s : State) : (s.edgeRuns n).blocks = s.blocks := by
  have hphases : (s.edgePhases n).blocks = s.blocks := State.foldl_blocks (State.phaseWork_blocks n) allCtx s
  unfold State.edgeRuns
  dsimp only
  split
  · exact hphases
  · unfold State.edgeEntries
    split
    · exact (State.foldl_blocks (State.serve_blocks n _) _ _).trans hphases
    · exact hphases

@[simp] theorem State.edgeFirst_blocks (e : FrameEdge) (s : State) : (s.edgeFirst e).1.blocks = s.blocks := by
  have haborts (u : State) : (u.edgeAborts e).blocks = u.blocks := by
    unfold State.edgeAborts; split <;> simp
  exact haborts _

@[simp] theorem State.edgeWork_blocks (e : FrameEdge) (s : State) : (s.edgeWork e).blocks = s.blocks := by
  unfold State.edgeWork
  dsimp only
  split
  · simp
  · split <;> simp

theorem State.applyReport_blocks (r : PunchReport) (s : State) : (s.applyReport r).blocks = s.blocks := by
  unfold State.applyReport
  split
  · split <;> simp
  · rfl

theorem State.guardCtx_blocks (s : State) (k : Fin 4) : (s.guardCtx k).blocks = s.blocks := by
  unfold State.guardCtx
  split
  · rfl
  · dsimp only; split <;> simp

theorem State.hearCtx_blocks (o q allowance : Nat) (s : State) (k : Fin 4) : (s.hearCtx o q allowance k).blocks = s.blocks := by
  unfold State.hearCtx
  split
  · rfl
  · split
    · split <;> simp
    · rfl

theorem State.retireTake_blocks (slot number : Nat) (s : State) : (s.retireTake slot number).blocks = s.blocks :=
  State.foldl_blocks (fun _ _ => by simp) allCtx _

/-! ## Commands: the work of an owner -/

/-- The work of an owner on a command leaves the three blocks. -/
def Spares (s : State) (x : State × Reply) : Prop := x.1.blocks = s.blocks

theorem Spares.refusal (r : Result) (s : State) : Spares s (refuse r s) := rfl

theorem Spares.ite {p : Prop} [Decidable p] {s : State} {x y : State × Reply} (hx : Spares s x) (hy : Spares s y) :
    Spares s (if p then x else y) := by
  split
  · exact hx
  · exact hy

theorem Spares.check {p : Prop} [Decidable p] {s : State} {r : Result} {x : State × Reply} (hx : Spares s x) :
    Spares s (if p then refuse r s else x) :=
  .ite (.refusal r s) hx

theorem withReel_spares {code : Byte} {f : Fin 8 → State → State × Reply} {s : State} (h : ∀ r, Spares s (f r s)) :
    Spares s (withReel code f s) := by
  unfold withReel
  split
  · exact .refusal _ s
  · exact h _

theorem withForm_spares {form : Option UndefinedForm} {f : State → State × Reply} {s : State} (h : Spares s (f s)) :
    Spares s (withForm form f s) := by
  unfold withForm
  split
  · exact .refusal _ s
  · exact h

theorem cueChecks_spares {cmd : CueCommand} {ok : Bool} {f : State → State × Reply} {s : State} (h : Spares s (f s)) :
    Spares s (cueChecks cmd ok f s) := by
  obtain ⟨r, hr⟩ | hgo := cueChecks_cases cmd ok f s
  · rw [hr]; exact .refusal r s
  · rw [hgo]; exact h

theorem withCue_spares {loop : BitVec 16} {f : Nat → Cue → State → State × Reply} {s : State}
    (h : ∀ slot c, Spares s (f slot c s)) : Spares s (withCue loop f s) := by
  obtain ⟨r, hr⟩ | ⟨slot, c, -, hgo⟩ := withCue_cases loop f s
  · rw [hr]; exact .refusal r s
  · rw [hgo]; exact h slot c

theorem takeChecks_spares {ok : Bool} {loop : BitVec 16} {take : Byte} {f : Nat → State → State} {s : State}
    (h : ∀ slot, (f slot s).blocks = s.blocks) : Spares s (takeChecks ok loop take f s) := by
  refine .check <| .check <| withCue_spares fun slot c => .check ?_
  split
  · exact .refusal _ s
  · exact .check (h slot)

theorem State.selectPlay_spares (r : Fin 8) (s : State) : Spares s (s.selectPlay r) :=
  .ite (.ite rfl (s.switchPlay_blocks r)) (.ite rfl rfl)

theorem State.clearReel_blocks (r : Fin 8) (s : State) : (s.clearReel r).blocks = s.blocks := by
  have hrelease (c : Option ConformRecord) (u : State) : (u.releaseSource c).blocks = u.blocks := by
    unfold State.releaseSource; split <;> simp
  unfold State.clearReel
  dsimp only
  split <;> simp [hrelease]

theorem State.startShift_spares (delta : Int) (s : State) : Spares s (s.startShift delta) :=
  .check <| .check <| .check <| .check <| .check <| .ite rfl (State.markIfPlay_blocks _ _)

theorem State.startCopy_spares (source dest : Fin 8) (delta : Int) (s : State) : Spares s (s.startCopy source dest delta) :=
  .check <| .check <| .check <| .check <| .check <| .check <| .ite rfl rfl

theorem State.resume_spares (s : State) : Spares s s.resume := by
  refine .check <| .check ?_
  dsimp only
  split
  · exact rfl
  · exact .refusal _ s

theorem State.writeChecked_spares (loop : Nat) (f : CueFields) (mode : Mode) (s : State) :
    Spares s (s.writeChecked loop f mode) := by
  unfold State.writeChecked
  split
  · refine .ite (.check <| .check ?_) (.refusal _ s)
    split
    · exact .refusal _ s
    · exact State.markIfPlay_blocks _ _
  · exact .refusal _ s

theorem State.amendChecked_spares (loop : BitVec 16) (f : AmendFields) (mode : Option Mode) (s : State) :
    Spares s (s.amendChecked loop f mode) := by
  unfold State.amendChecked
  split
  · exact withCue_spares fun slot c => .check <| .check <| .check <| .ite rfl (State.applyVals_blocks _ _ _ _ _)
  · exact .refusal _ s

theorem State.retireCue_blocks (slot : Nat) (c : Cue) (s : State) : (s.retireCue slot c).blocks = s.blocks := by
  unfold State.retireCue
  rw [State.markIfPlay_blocks, State.modReel_blocks]
  split
  · split <;> simp
  · rfl

theorem State.armFound_spares (kind : ArmKind) (slot : Nat) (c : Cue) (s : State) : Spares s (s.armFound kind slot c) := by
  refine .check ?_
  split
  · exact .refusal _ s
  · exact rfl

theorem State.disarmFound_spares (slot : Nat) (c : Cue) (s : State) : Spares s (s.disarmFound slot c) := by
  unfold State.disarmFound
  dsimp only
  split <;> exact rfl

/-! ## The link, the overlay and the background work -/

theorem State.judge_blocks (len : Byte) (body : List Byte) (check : Byte) (s : State) :
    (s.judge len body check).blocks = s.blocks := by
  have hlink (r : Result) (kind : Byte) : (s.linkAnswer r kind).blocks = s.blocks := State.transmit_blocks _
  unfold State.judge
  dsimp only
  repeat' split
  · exact hlink _ _
  · exact hlink _ _
  · exact hlink _ _
  · exact hlink _ _
  · rfl

theorem State.draw_blocks (r : LaneReport) (s : State) : (s.draw r).blocks = s.blocks := by
  unfold State.draw; split <;> rfl

theorem State.endConform_blocks (op : Operation) (s : State) : (s.endConform op).blocks = s.blocks :=
  (State.raise_blocks _ _).trans (State.markIfPlay_blocks _ _)

theorem State.shiftAt_blocks (op : Operation) (slot : Nat) (s : State) : (s.shiftAt op slot).blocks = s.blocks := by
  unfold State.shiftAt
  dsimp only
  split
  · exact State.endConform_blocks op _
  · rfl

theorem State.copyAt_blocks (op : Operation) (source : Fin 8) (c : Cue) (slot : Nat) (s : State) :
    (s.copyAt op source c slot).blocks = s.blocks := by
  have hcreate : ((s.modReel op.target (Reel.create slot (newCue c.loop (c.vals.moved op.delta)))).markIfPlay
      op.target).blocks = s.blocks := State.markIfPlay_blocks _ _
  unfold State.copyAt
  dsimp only
  split
  · exact (State.endConform_blocks op _).trans hcreate
  · exact hcreate

end Sys2Proof.Machine
end

section
/-! The laws of the position, of the punch lines and of the tone generator (R70, R80, R111, R115, R116, R129, R142): each
operation of their blocks keeps them. -/

namespace Sys2Proof.Machine

/-- From one state to the other the laws of the three blocks are kept, each on its own. -/
structure LawsKept (s t : State) : Prop where
  pos : s.pos.lawful = true → t.pos.lawful = true
  pch : s.pch.lawful = true → t.pch.lawful = true
  ciu : s.ciu.lawful = true → t.ciu.lawful = true

theorem LawsKept.of_blocks {s t : State} (h : t.blocks = s.blocks) : LawsKept s t := by
  obtain ⟨hpos, hpch, hciu⟩ := State.fields_of_blocks h
  exact ⟨fun hs => by rwa [hpos], fun hs => by rwa [hpch], fun hs => by rwa [hciu]⟩

theorem LawsKept.refl (s : State) : LawsKept s s := ⟨id, id, id⟩

theorem LawsKept.trans {s t u : State} (h : LawsKept s t) (h' : LawsKept t u) : LawsKept s u :=
  ⟨h'.pos ∘ h.pos, h'.pch ∘ h.pch, h'.ciu ∘ h.ciu⟩

/-- A change of the position alone. -/
theorem LawsKept.of_pos {s t : State} (hpch : t.pch = s.pch) (hciu : t.ciu = s.ciu)
    (h : s.pos.lawful = true → t.pos.lawful = true) : LawsKept s t :=
  ⟨h, fun hs => by rwa [hpch], fun hs => by rwa [hciu]⟩

/-- A change of the Punch Unit alone. -/
theorem LawsKept.of_pch {s t : State} (hpos : t.pos = s.pos) (hciu : t.ciu = s.ciu)
    (h : s.pch.lawful = true → t.pch.lawful = true) : LawsKept s t :=
  ⟨fun hs => by rwa [hpos], h, fun hs => by rwa [hciu]⟩

/-- A change of the Count-In Unit alone. -/
theorem LawsKept.of_ciu {s t : State} (hpos : t.pos = s.pos) (hpch : t.pch = s.pch)
    (h : s.ciu.lawful = true → t.ciu.lawful = true) : LawsKept s t :=
  ⟨fun hs => by rwa [hpos], fun hs => by rwa [hpch], h⟩

/-- Nothing raised, posted, taken or answered touches the blocks. -/
theorem LawsKept.blocks_right {s t u : State} (h : LawsKept s t) (hu : u.blocks = t.blocks) : LawsKept s u :=
  h.trans (.of_blocks hu)

theorem LawsKept.owner {i : Instr} {f : State → State × Reply} {s : State} (h : LawsKept s (f s).1) :
    LawsKept s (s.owner i f) :=
  h.blocks_right (State.owner_blocks i f s)

theorem LawsKept.ite {c : Prop} [Decidable c] {s t u : State} (ht : c → LawsKept s t) (hu : ¬ c → LawsKept s u) :
    LawsKept s (if c then t else u) := by
  split
  · next h => exact ht h
  · next h => exact hu h

/-! ## The position -/

theorem fDay_pos (rate : Rate) : 0 < rate.fDay := by cases rate <;> decide

/-- The frame after a frame of the day lies in the day (R76). -/
theorem nextFrame_lt {rate : Rate} {n : Nat} (h : n < rate.fDay) (dir : Dir) : nextFrame rate n dir < rate.fDay := by
  have := fDay_pos rate
  cases dir <;> simp only [nextFrame] <;> split <;> omega

theorem firstCell_le (dir : Dir) : firstCell dir ≤ 79 := by cases dir <;> decide

/-- The values a position state holds (Table 4-4). -/
def Pos.held (p : Pos) : Bool :=
  match p.state with
  | .unknown =>
    decide (p.n = 0) && decide (p.b = 0) && decide (p.dir = .forward) && p.period.isNone && !p.mark && decide (p.count = 0)
  | .locked => p.period.isSome && decide (p.count = 0)
  | .freewheel => p.period.isSome && decide (1 ≤ p.count) && decide (p.count ≤ 30)
  | .stopped => decide (p.b = 0) && p.period.isNone && !p.mark && decide (p.count = 0)

theorem Pos.lawful_iff (p : Pos) :
    p.lawful = true ↔ p.n < p.rate.fDay ∧ p.b ≤ 79 ∧ p.limit ≤ 30 ∧ p.held = true := by
  have : p.lawful = (decide (p.n < p.rate.fDay) && decide (p.b ≤ 79) && decide (p.limit ≤ 30) && p.held) := rfl
  simp [this, and_assoc]

theorem Pos.held_locked {p : Pos} (h : p.state = .locked) : p.held = true ↔ p.period.isSome = true ∧ p.count = 0 := by
  simp [Pos.held, h]

theorem Pos.held_freewheel {p : Pos} (h : p.state = .freewheel) :
    p.held = true ↔ p.period.isSome = true ∧ 1 ≤ p.count ∧ p.count ≤ 30 := by
  simp [Pos.held, h, and_assoc]

theorem Pos.lawful_stop {p : Pos} (h : p.lawful = true) : p.stop.lawful = true := by
  obtain ⟨hn, -, hlimit, -⟩ := (Pos.lawful_iff p).mp h
  exact (Pos.lawful_iff _).mpr ⟨hn, Nat.zero_le _, hlimit, rfl⟩

@[simp] theorem State.enterPos_pos (p : Pos) (s : State) : (s.enterPos p).pos = p := State.raise_pos _ _
@[simp] theorem State.enterPos_pch (p : Pos) (s : State) : (s.enterPos p).pch = s.pch := State.raise_pch _ _
@[simp] theorem State.enterPos_ciu (p : Pos) (s : State) : (s.enterPos p).ciu = s.ciu := State.raise_ciu _ _
@[simp] theorem State.edgePos_pos (p : Pos) (jump resume : Bool) (s : State) : (s.edgePos p jump resume).pos = p := rfl
@[simp] theorem State.edgePos_pch (p : Pos) (jump resume : Bool) (s : State) : (s.edgePos p jump resume).pch = s.pch := rfl
@[simp] theorem State.edgePos_ciu (p : Pos) (jump resume : Bool) (s : State) : (s.edgePos p jump resume).ciu = s.ciu := rfl

theorem State.enterPos_keepsLaws {p : Pos} {s : State} (h : s.pos.lawful = true → p.lawful = true) :
    LawsKept s (s.enterPos p) :=
  .of_pos (by simp) (by simp) (by simpa using h)

theorem State.edgePos_keepsLaws {p : Pos} {jump resume : Bool} {s : State} (h : s.pos.lawful = true → p.lawful = true) :
    LawsKept s (s.edgePos p jump resume) :=
  .of_pos rfl rfl h

/-- A position entered and its first frame edge raised. -/
theorem State.enterEdge_keepsLaws {p : Pos} {jump resume : Bool} {s : State} (h : s.pos.lawful = true → p.lawful = true) :
    LawsKept s ((s.enterPos p).edgePos p jump resume) :=
  (State.enterPos_keepsLaws h).trans (State.edgePos_keepsLaws fun hp => by simpa using hp)

theorem State.missing_keepsLaws {s : State} (hs : s.pos.state = .locked) : LawsKept s s.missing := by
  refine .ite (fun _ => State.enterPos_keepsLaws Pos.lawful_stop) fun _ => State.enterEdge_keepsLaws fun h => ?_
  obtain ⟨hn, -, hlimit, hheld⟩ := (Pos.lawful_iff _).mp h
  obtain ⟨hperiod, -⟩ := (Pos.held_locked hs).mp hheld
  exact (Pos.lawful_iff _).mpr ⟨nextFrame_lt hn _, firstCell_le _, hlimit,
    (Pos.held_freewheel rfl).mpr ⟨hperiod, Nat.le_refl 1, Nat.le_add_left 1 29⟩⟩

theorem agrees_iff (rate : Rate) (f : LtcFrame) : agrees rate f = true ↔ dropFlag f = rate.isDrop := by simp [agrees]

/-- The four tests of a good frame (R62). -/
theorem goodFrame_iff (rate : Rate) (f : LtcFrame) : goodFrame rate f = true ↔
    (∀ d ∈ digitsOf f, d ≤ 9) ∧ (labelRead f).valid rate = true ∧ dropFlag f = rate.isDrop
      ∧ 250 ≤ speedOf rate f.duration ∧ speedOf rate f.duration ≤ 4000 := by
  simp [goodFrame, agrees_iff, inWindow, and_assoc]

/-- A good frame carries a valid label (R62), so its number lies in the day. -/
theorem goodFrame_number_lt {rate : Rate} {f : LtcFrame} (h : goodFrame rate f = true) :
    (labelRead f).number rate < rate.fDay := by
  obtain ⟨-, hvalid, -, -, -⟩ := (goodFrame_iff rate f).mp h
  exact Label.number_lt_fDay hvalid

theorem State.lock_keepsLaws {n : Nat} {f : LtcFrame} {s : State} (hn : n < s.pos.rate.fDay) : LawsKept s (s.lock n f) := by
  refine State.enterEdge_keepsLaws fun h => ?_
  obtain ⟨-, -, hlimit, -⟩ := (Pos.lawful_iff _).mp h
  exact (Pos.lawful_iff _).mpr ⟨hn, firstCell_le _, hlimit, rfl⟩

theorem State.continueLocked_keepsLaws {n : Nat} {f : LtcFrame} {s : State} (hn : n < s.pos.rate.fDay)
    (hs : s.pos.state = .locked) : LawsKept s (s.continueLocked n f) := by
  refine State.edgePos_keepsLaws fun h => ?_
  obtain ⟨-, -, hlimit, hheld⟩ := (Pos.lawful_iff _).mp h
  obtain ⟨-, hcount⟩ := (Pos.held_locked hs).mp hheld
  refine (Pos.lawful_iff _).mpr ⟨hn, firstCell_le _, hlimit, (Pos.held_locked ?_).mpr ⟨rfl, hcount⟩⟩
  exact hs

theorem State.endFreewheel_keepsLaws {n : Nat} {f : LtcFrame} {s : State} (hn : n < s.pos.rate.fDay)
    (hs : s.pos.state = .freewheel) : LawsKept s (s.endFreewheel n f) := by
  have hperiod (h : s.pos.lawful = true) : s.pos.period.isSome = true := by
    obtain ⟨-, -, -, hheld⟩ := (Pos.lawful_iff _).mp h
    exact ((Pos.held_freewheel hs).mp hheld).1
  refine .ite (fun _ => State.enterPos_keepsLaws fun h => ?_) fun _ => State.enterEdge_keepsLaws fun h => ?_
  · obtain ⟨hn, hb, hlimit, -⟩ := (Pos.lawful_iff _).mp h
    exact (Pos.lawful_iff _).mpr ⟨hn, hb, hlimit, (Pos.held_locked rfl).mpr ⟨hperiod h, rfl⟩⟩
  · obtain ⟨-, -, hlimit, -⟩ := (Pos.lawful_iff _).mp h
    exact (Pos.lawful_iff _).mpr ⟨hn, firstCell_le _, hlimit, (Pos.held_locked rfl).mpr ⟨hperiod h, rfl⟩⟩

@[simp] theorem State.testAgreement_rate (f : LtcFrame) (s : State) : (s.testAgreement f).pos.rate = s.pos.rate := by
  unfold State.testAgreement; split
  · rfl
  · split <;> simp

/-- The mismatch flag has no part in the law of the position. -/
theorem State.testAgreement_keepsLaws (f : LtcFrame) (s : State) : LawsKept s (s.testAgreement f) :=
  .ite (fun _ => .of_pos rfl rfl id) fun _ => .ite (fun _ => .refl s) fun _ =>
    .of_pos (by simp) (by simp) fun h => by rw [State.raise_pos]; exact h

theorem State.takeFrame_keepsLaws (f : LtcFrame) (s : State) : LawsKept s (s.takeFrame f) := by
  have hn (h : goodFrame s.pos.rate f = true) := goodFrame_number_lt h
  unfold State.takeFrame
  dsimp only
  split
  case h_1 _ _ _ hg => exact State.lock_keepsLaws (hn hg)
  case h_2 _ _ _ hg => exact State.lock_keepsLaws (hn hg)
  case h_3 _ _ hs hg => exact State.continueLocked_keepsLaws (hn hg) hs
  case h_4 _ _ hs _ => exact State.missing_keepsLaws hs
  case h_5 _ _ hs hg => exact State.endFreewheel_keepsLaws (hn hg) hs
  all_goals exact .refl s

theorem nextCell_le {b b' : Nat} {dir : Dir} (hb : b ≤ 79) (h : nextCell b dir = some b') : b' ≤ 79 := by
  cases dir <;> simp only [nextCell] at h <;> split at h <;> simp at h <;> omega

theorem State.tickCell_keepsLaws {b : Nat} {s : State} (hs : isRunning s.pos.state = true)
    (hb : nextCell s.pos.b s.pos.dir = some b) : LawsKept s { s with pos := { s.pos with b := b } } := by
  refine .of_pos rfl rfl fun h => ?_
  obtain ⟨hn, hb', hlimit, hheld⟩ := (Pos.lawful_iff _).mp h
  refine (Pos.lawful_iff _).mpr ⟨hn, nextCell_le hb' hb, hlimit, hheld ▸ ?_⟩
  cases hst : s.pos.state <;> simp only [hst, isRunning, Bool.false_eq_true] at hs <;> simp only [Pos.held, hst]

theorem State.setRate_keepsLaws (rate : Rate) (s : State) :
    LawsKept s (if s.pos.state = .unknown then { s with pos := s.pos.setRate rate } else s.enterPos (s.pos.setRate rate)) := by
  have h (h : s.pos.lawful = true) : (s.pos.setRate rate).lawful = true := by
    obtain ⟨-, -, hlimit, -⟩ := (Pos.lawful_iff _).mp h
    exact (Pos.lawful_iff _).mpr ⟨fDay_pos rate, Nat.zero_le _, hlimit, rfl⟩
  exact .ite (fun _ => .of_pos rfl rfl h) fun _ => State.enterPos_keepsLaws h

theorem State.setLimit_keepsLaws {limit : Nat} (h : limit ≤ 30) (s : State) :
    LawsKept s { s with pos := { s.pos with limit := limit } } := by
  refine .of_pos rfl rfl fun hs => ?_
  obtain ⟨hn, hb, -, hheld⟩ := (Pos.lawful_iff _).mp hs
  exact (Pos.lawful_iff _).mpr ⟨hn, hb, h, hheld⟩

/-! ## The punch lines -/

/-- The law of the Punch Unit, line by line (R129, R142). -/
theorem Pch.lawful_iff (p : Pch) : p.lawful = true ↔ (∀ k : Fin 8, p.lines[k].lawful = true)
    ∧ (p.unit = .guarded → (∀ k : Fin 8, p.lines[k].isIn = false) ∧ p.manual = none) := by
  have hall (q : Fin 8 → Bool) : allLines.all q = true ↔ ∀ k, q k = true := by
    simp [allLines, Fin.forall_fin_succ]
  simp only [Pch.lawful, Bool.and_eq_true, Bool.or_eq_true, hall, decide_eq_true_eq, Bool.not_eq_true', Option.isNone_iff_eq_none]
  cases p.unit <;> simp

theorem Line.lawful_putOut (l : Line) : l.putOut.lawful = true := rfl

/-- A line may be given to a context in CUE mode and to manual control in MANUAL mode (R129). -/
theorem Line.lawful_give {l : Line} {o : Owner} (hc : ∀ j, o = .context j → l.mode = .cue) (hm : o = .manual → l.mode = .manual)
    (hn : o ≠ .nobody) : (l.give o).lawful = true := by
  cases o with
  | nobody => exact absurd rfl hn
  | context j => simp [Line.lawful, Line.give, hc j rfl]
  | manual => simp [Line.lawful, Line.give, hm rfl]

/-- Lines are given while the unit is NORMAL, each to an owner its mode allows. -/
theorem Pch.give_lawful {o : Owner} {set : LineSet} {p : Pch} (h : p.lawful = true)
    (hset : ∀ k : Fin 8, inSet k set = true → p.unit = .normal ∧ (p.lines[k].give o).lawful = true) :
    (p.give o set).lawful = true := by
  obtain ⟨hlines, hguard⟩ := (Pch.lawful_iff p).mp h
  have hline (k : Fin 8) : (p.give o set).lines[k] = if inSet k set then p.lines[k].give o else p.lines[k] :=
    Pch.give_line o set p k.val k.isLt
  refine (Pch.lawful_iff _).mpr ⟨fun k => ?_, fun hg => ⟨fun k => ?_, (hguard hg).2⟩⟩
  · rw [hline]
    split
    · next hk => exact (hset k hk).2
    · exact hlines k
  · rw [hline, if_neg]
    · exact (hguard hg).1 k
    · intro hk
      have hn : (p.give o set).unit = .normal := (hset k hk).1
      rw [hg] at hn
      cases hn

theorem Pch.putOut_lawful {set : LineSet} {p : Pch} (h : p.lawful = true) : (p.putOut set).lawful = true := by
  obtain ⟨hlines, hguard⟩ := (Pch.lawful_iff p).mp h
  have hline (k : Fin 8) : (p.putOut set).lines[k] = if inSet k set then p.lines[k].putOut else p.lines[k] :=
    Pch.putOut_line set p k.val k.isLt
  refine (Pch.lawful_iff _).mpr ⟨fun k => ?_, fun hg => ⟨fun k => ?_, (hguard hg).2⟩⟩
  · rw [hline]
    split
    · exact Line.lawful_putOut _
    · exact hlines k
  · rw [hline]
    split
    · rfl
    · exact (hguard hg).1 k

/-- A unit that holds a staged manual entry is NORMAL (R142). -/
theorem Pch.normal_of_manual {p : Pch} (h : p.lawful = true) (hm : p.manual ≠ none) : p.unit = .normal := by
  cases hu : p.unit with
  | normal => rfl
  | guarded => exact absurd (((Pch.lawful_iff p).mp h).2 hu).2 hm

theorem Pch.manual_lawful {p : Pch} {e : Option ManualEntry} (h : p.lawful = true) (he : p.unit = .guarded → e = none) :
    ({ p with manual := e } : Pch).lawful = true := by
  obtain ⟨hlines, hguard⟩ := (Pch.lawful_iff p).mp h
  exact (Pch.lawful_iff _).mpr ⟨hlines, fun hg => ⟨(hguard hg).1, he hg⟩⟩

theorem State.setStaged_keepsLaws (j : Fin 4) (e : Option Staged) (s : State) : LawsKept s (s.setStaged j e) :=
  .of_pch rfl rfl id

theorem State.transfer_keepsLaws (j : Fin 4) (e : Staged) (s : State) : LawsKept s (s.transfer j e) := by
  unfold State.transfer
  split
  · refine LawsKept.blocks_right (t := { s with pch := s.pch.give (.context j) (s.pch.grantable e.lines) })
      (.of_pch rfl rfl fun h => Pch.give_lawful h fun k hk => ?_) (State.raise_blocks _ _)
    simp only [Pch.grantable, Pch.inSet_linesWhere, Bool.and_eq_true, decide_eq_true_eq] at hk
    obtain ⟨⟨⟨-, hmode⟩, -⟩, hu⟩ := hk
    exact ⟨hu, Line.lawful_give (fun _ _ => hmode) (fun h => by cases h) (fun h => by cases h)⟩
  · exact LawsKept.blocks_right (t := { s with pch := s.pch.putOut (s.pch.ownedBy j) })
      (.of_pch rfl rfl Pch.putOut_lawful) (State.raise_blocks _ _)

@[simp] theorem State.transferManual_pos (e : ManualEntry) (s : State) : (s.transferManual e).pos = s.pos := by
  unfold State.transferManual; dsimp only; split <;> simp

@[simp] theorem State.transferManual_ciu (e : ManualEntry) (s : State) : (s.transferManual e).ciu = s.ciu := by
  unfold State.transferManual; dsimp only; split <;> simp

/-- A manual entry is transferred while the unit is NORMAL (R139, R142). -/
theorem State.transferManual_lawful (e : ManualEntry) {s : State} (hu : s.pch.unit = .normal) (h : s.pch.lawful = true) :
    (s.transferManual e).pch.lawful = true := by
  unfold State.transferManual
  dsimp only
  split
  · rw [State.raise_pch]
    refine Pch.give_lawful h fun k hk => ?_
    simp only [Pch.manualLines, Pch.inSet_linesWhere, Bool.and_eq_true, decide_eq_true_eq] at hk
    obtain ⟨⟨-, hmode⟩, -⟩ := hk
    exact ⟨hu, Line.lawful_give (fun _ h => by cases h) (fun _ => hmode) (fun h => by cases h)⟩
  · rw [State.raise_pch]
    exact Pch.putOut_lawful h

theorem State.transferStagedManual_keepsLaws (s : State) : LawsKept s s.transferStagedManual := by
  unfold State.transferStagedManual
  split
  · next e he =>
    refine .of_pch (by simp) (by simp) fun h => State.transferManual_lawful e ?_ (Pch.manual_lawful h fun _ => rfl)
    exact Pch.normal_of_manual (p := s.pch) h (by rw [he]; simp)
  · exact .refl s

theorem State.foldl_keepsLaws {α : Type} {f : State → α → State} (hf : ∀ s a, LawsKept s (f s a)) (l : List α) (s : State) :
    LawsKept s (l.foldl f s) := by
  induction l generalizing s with
  | nil => exact .refl s
  | cons a l ih => exact (hf s a).trans (ih _)

theorem State.transferDue_keepsLaws (a : Action) (n : Nat) (s : State) (j : Fin 4) : LawsKept s (s.transferDue a n j) := by
  unfold State.transferDue
  split
  · exact .ite (fun _ => (State.setStaged_keepsLaws j none s).trans (State.transfer_keepsLaws j _ _)) fun _ => .refl s
  · exact .refl s

theorem State.stageEntry_keepsLaws (j : Fin 4) (e : Staged) (s : State) : LawsKept s (s.stageEntry j e) := by
  have hplace (u : State) : LawsKept u (u.placeEntry j e) :=
    .ite (fun _ => State.transfer_keepsLaws j e u) fun _ => State.setStaged_keepsLaws j _ u
  unfold State.stageEntry
  split
  · exact ((State.setStaged_keepsLaws j none s).trans (State.transfer_keepsLaws j _ _)).trans (hplace _)
  · exact hplace s

theorem State.releaseLines_keepsLaws (j : Fin 4) (s : State) : LawsKept s (s.releaseLines j) := by
  have hout : LawsKept (s.setStaged j none) { s.setStaged j none with
      pch := (s.setStaged j none).pch.putOut ((s.setStaged j none).pch.ownedBy j) } := .of_pch rfl rfl Pch.putOut_lawful
  refine (State.setStaged_keepsLaws j none s).trans ?_
  exact .ite (fun _ => hout) fun _ => hout.blocks_right (State.raise_blocks _ _)

/-- A PUNCH_MANUAL that passed its checks finds the unit NORMAL (R139). -/
theorem State.punchManual_keepsLaws (e : ManualEntry) {s : State} (hu : s.pch.unit = .normal) :
    LawsKept s (s.punchManual e) := by
  have hstaged : LawsKept s { s with pch := { s.pch with manual := some e } } :=
    .of_pch rfl rfl fun h => Pch.manual_lawful h fun hg => by rw [hu] at hg; cases hg
  have hmoved : LawsKept s (s.transferManual e) := .of_pch (by simp) (by simp) (State.transferManual_lawful e hu)
  unfold State.punchManual
  split
  · exact hstaged
  · exact hstaged
  · exact hmoved
  · exact hmoved

/-- A line as SET_LINES leaves it: one in by manual control that leaves MANUAL mode is put out, then the mode and the polarity
are those given (R131). -/
def Line.set (mode : LineMode) (activeLow : Bool) (l : Line) : Line :=
  { (if l.owner = .manual ∧ mode = .cue then l.putOut else l) with mode := mode, activeLow := activeLow }

theorem Pch.setLines_line (manual activeLow : LineSet) (p : Pch) (k : Fin 8) :
    (p.setLines manual activeLow).lines[k] = p.lines[k].set (modeGiven manual k) (inSet k activeLow) := by
  have hout : (p.putOut (p.leaving manual)).lines[k]
      = if p.lines[k].owner = .manual ∧ modeGiven manual k = .cue then p.lines[k].putOut else p.lines[k] := by
    refine (Pch.putOut_line _ p k.val k.isLt).trans (if_congr ?_ rfl rfl)
    simp [Pch.leaving]
  exact (mapLines_get _ _ k).trans (congrArg (fun l : Line =>
    { l with mode := modeGiven manual k, activeLow := inSet k activeLow }) hout)

/-- A line keeps its law where SET_LINES leaves the mode of a line that a context owns (R131). -/
theorem Line.lawful_set {l : Line} {mode : LineMode} {activeLow : Bool} (h : l.lawful = true)
    (hc : ∀ j, l.owner = .context j → l.mode = mode) : (l.set mode activeLow).lawful = true := by
  unfold Line.set
  split_ifs with hout
  · rfl
  · cases ho : l.owner with
    | nobody => simpa [Line.lawful, ho] using h
    | context j => simpa [Line.lawful, ho, hc j ho] using h
    | manual =>
      cases mode with
      | cue => exact absurd ⟨ho, rfl⟩ hout
      | manual =>
        simp only [Line.lawful, ho, Bool.and_eq_true] at h ⊢
        exact ⟨h.1, rfl⟩

theorem Line.set_isIn {l : Line} {mode : LineMode} {activeLow : Bool} (h : l.isIn = false) :
    (l.set mode activeLow).isIn = false := by
  unfold Line.set
  split_ifs
  · rfl
  · exact h

theorem mem_allLines (k : Fin 8) : k ∈ allLines := by revert k; decide

/-- SET_LINES is refused where it would change the mode of a line that a context owns (R131). -/
theorem Pch.mode_of_not_busy {manual : LineSet} {p : Pch} (h : p.busy manual = false) {k : Fin 8} {j : Fin 4}
    (hk : p.lines[k].owner = .context j) : p.lines[k].mode = modeGiven manual k := by
  have hall := List.any_eq_false.mp h k (mem_allLines k)
  rw [hk] at hall
  simpa using hall

theorem Pch.setLines_lawful {manual activeLow : LineSet} {p : Pch} (h : p.lawful = true) (hb : p.busy manual = false) :
    (p.setLines manual activeLow).lawful = true := by
  obtain ⟨hlines, hguard⟩ := (Pch.lawful_iff p).mp h
  refine (Pch.lawful_iff _).mpr ⟨fun k => ?_, fun hg => ⟨fun k => ?_, (hguard hg).2⟩⟩
  · rw [Pch.setLines_line]
    exact Line.lawful_set (hlines k) fun _ => Pch.mode_of_not_busy hb
  · rw [Pch.setLines_line]
    exact Line.set_isIn ((hguard hg).1 k)

theorem Pch.trip_lawful (p : Pch) : p.trip.lawful = true := by
  have hline (k : Fin 8) : p.trip.lines[k] = { p.lines[k].putOut with mode := .manual } := mapLines_get _ _ k
  refine (Pch.lawful_iff _).mpr ⟨fun k => ?_, fun _ => ⟨fun k => ?_, rfl⟩⟩
  · rw [hline]; rfl
  · rw [hline]; rfl

theorem warmPunch_lawful (guardHigh : Bool) (p : Pch) : (warmPunch guardHigh p).lawful = true := by
  refine (Pch.lawful_iff _).mpr ⟨fun k => ?_, fun _ => ⟨fun k => ?_, rfl⟩⟩
  · rw [warmPunch_line]; rfl
  · rw [warmPunch_line]; rfl

/-! ## The tone generator -/

/-- A gate is open only on a context in use with a current beat (R111). -/
def Beat.lawful (b : Beat) : Bool := !b.gate || (b.start.isSome && b.current.isSome)

/-- The generator counts exactly while a context sounds, and is low without one (R115, R116). -/
def ToneGen.lawful (g : ToneGen) : Bool := if g.sounding.isSome then g.count.isSome else !g.level && g.count.isNone

theorem Ciu.lawful_iff (c : Ciu) : c.lawful = true ↔ c.tone.sounding = lowestOpen c.beats ∧ c.tone.lawful = true
    ∧ ∀ k : Fin 4, c.beats[k].lawful = true := by
  have : c.lawful = (decide (c.tone.sounding = lowestOpen c.beats) && c.tone.lawful && allCtx.all fun k => c.beats[k].lawful) :=
    rfl
  simp [this, allCtx, Fin.forall_fin_succ, and_assoc]

theorem ToneGen.sound_sounding (v : Vector Beat 4) (g : ToneGen) : (g.sound v).sounding = lowestOpen v := by
  unfold ToneGen.sound
  split
  · next hg hv => rw [hg, hv]
  · next hv => exact hv.symm
  · next hv => exact hv.symm
  · next j k hg hv =>
    split_ifs with h
    · rw [hg, hv, h]
    · exact hv.symm

theorem ToneGen.sound_lawful (v : Vector Beat 4) {g : ToneGen} (h : g.lawful = true) : (g.sound v).lawful = true := by
  unfold ToneGen.sound
  split
  · exact h
  · rfl
  · rfl
  · split_ifs
    · exact h
    · rfl

theorem ToneGen.halfWave_lawful {g : ToneGen} (h : g.lawful = true) :
    g.halfWave.sounding = g.sounding ∧ g.halfWave.lawful = true := by
  unfold ToneGen.halfWave
  split
  · next hs => exact ⟨rfl, by simp [ToneGen.lawful, hs]⟩
  · exact ⟨rfl, h⟩

/-- An open gate found at a tick has a current beat (R111). -/
theorem Beat.find_lawful (t : Nat) {b : Beat} (h : b.lawful = true) : (b.find t).lawful = true := by
  unfold Beat.find
  split
  · next start c hstart _ =>
    cases hc : c.currentBeat t <;> simp [Beat.lawful, CountIn.gateOpen, hstart]
  · exact h

theorem Beat.enter_lawful (start : Nat) (cue : Option CountIn) (last : Option (Nat × Dir)) :
    (Beat.enter start cue last).lawful = true := by
  unfold Beat.enter
  dsimp only
  split
  · exact Beat.find_lawful _ rfl
  · rfl

/-- Beat states that keep their law leave the generator sounding as it must, in the same event (R115). -/
theorem Ciu.withBeats_lawful {v : Vector Beat 4} {c : Ciu} (h : c.lawful = true) (hv : ∀ k : Fin 4, v[k].lawful = true) :
    (c.withBeats v).lawful = true :=
  (Ciu.lawful_iff _).mpr ⟨ToneGen.sound_sounding v _, ToneGen.sound_lawful v ((Ciu.lawful_iff c).mp h).2.1, hv⟩

theorem Ciu.tick_lawful (t : Nat) (dir : Dir) {c : Ciu} (h : c.lawful = true) : (c.tick t dir).lawful = true := by
  obtain ⟨-, -, hbeats⟩ := (Ciu.lawful_iff c).mp h
  refine Ciu.withBeats_lawful (c := { c with last := some (t, dir) }) h fun k => ?_
  refine (congrArg Beat.lawful (mapBeats_getElem _ c.beats k.val k.isLt)).trans ?_
  cases dir with
  | forward => exact Beat.find_lawful t (hbeats k)
  | reverse => rfl

/-- One beat state set, as a hand-over sets it (R110). -/
theorem Ciu.setBeat_lawful (k : Fin 4) {b : Beat} {c : Ciu} (h : c.lawful = true) (hb : b.lawful = true) :
    (c.withBeats (c.beats.set k b)).lawful = true := by
  obtain ⟨-, -, hbeats⟩ := (Ciu.lawful_iff c).mp h
  refine Ciu.withBeats_lawful h fun j => ?_
  by_cases hj : k.val = j.val
  · simp [hj, hb]
  · simpa [hj] using hbeats j

theorem Ciu.halfWave_lawful {c : Ciu} (h : c.lawful = true) : ({ c with tone := c.tone.halfWave } : Ciu).lawful = true := by
  obtain ⟨hsounding, htone, hbeats⟩ := (Ciu.lawful_iff c).mp h
  obtain ⟨hsame, hlawful⟩ := ToneGen.halfWave_lawful htone
  exact (Ciu.lawful_iff _).mpr ⟨hsame.trans hsounding, hlawful, hbeats⟩

/-! ## The warm reset -/

theorem State.warm_keepsLaws (s : State) : LawsKept s s.warm where
  pos h := by
    obtain ⟨-, -, hlimit, -⟩ := (Pos.lawful_iff _).mp h
    exact (Pos.lawful_iff _).mpr ⟨fDay_pos _, Nat.zero_le _, hlimit, rfl⟩
  pch _ := warmPunch_lawful _ _
  ciu _ := rfl

/-! ## Every command and event -/

/-- Whatever the state, a command or event is taken and keeps the laws of the three blocks. -/
def KeepsLaws (i : Instr) : Prop := ∀ s, ∃ t, exec i s = .next t ∧ LawsKept s t

/-- An owner's event whose work leaves the three blocks. -/
theorem LawsKept.spares {i : Instr} {f : State → State × Reply} {s : State} (h : Spares s (f s)) : LawsKept s (s.owner i f) :=
  .owner (.of_blocks h)

theorem coldReset_keepsLaws : KeepsLaws .coldReset := by
  refine fun s => ⟨_, rfl, fun _ => rfl, fun _ => ?_, fun _ => rfl⟩
  refine (Pch.lawful_iff _).mpr ⟨fun k => ?_, fun _ => ⟨fun k => ?_, rfl⟩⟩
  · exact congrArg Line.lawful (Pch.reset_lines k)
  · exact congrArg Line.isIn (Pch.reset_lines k)

/-! ### Commands of the scheduler, the Cue Store and the Conform Unit -/

theorem passAbort_keepsLaws (context : Byte) : KeepsLaws (.passAbort context) := by
  refine fun s => ⟨_, rfl, .spares ?_⟩
  split
  · exact .refusal _ s
  · exact State.abortAll_blocks _ _ s

theorem reelClear_keepsLaws : KeepsLaws .reelClear := by
  refine fun s => ⟨_, rfl, .spares ?_⟩
  have hclear : Spares s (if s.editReel.anyPassing then refuse .passActive s
      else (s.clearReel s.cst.editReel, { result := .done })) := .check (s.clearReel_blocks _)
  dsimp only
  split
  · exact .refusal _ s
  · exact .refusal _ s
  · exact rfl
  · exact hclear
  · exact hclear

theorem reelCopy_keepsLaws (source dest : Byte) (delta : BitVec 32) : KeepsLaws (.reelCopy source dest delta) := by
  refine fun s => ⟨_, rfl, .spares ?_⟩
  split
  · exact .ite (s.startCopy_spares _ _ _) (.refusal _ s)
  · exact .refusal _ s

theorem cueWrite_keepsLaws (loop : BitVec 16) (f : CueFields) : KeepsLaws (.cueWrite loop f) := by
  refine fun s => ⟨_, rfl, .spares ?_⟩
  split
  · exact .refusal _ s
  · exact cueChecks_spares (s.writeChecked_spares _ f _)

theorem cueAmend_keepsLaws (loop : BitVec 16) (reserved : BitVec 4) (f : AmendFields) :
    KeepsLaws (.cueAmend loop reserved f) := by
  refine fun s => ⟨_, rfl, .spares ?_⟩
  split
  · exact .refusal _ s
  · exact cueChecks_spares (s.amendChecked_spares loop f _)

theorem cueNext_keepsLaws (label : Label) : KeepsLaws (.cueNext label) := by
  refine fun s => ⟨_, rfl, .spares ?_⟩
  split
  · exact .refusal _ s
  · split
    · exact .refusal _ s
    · exact rfl

theorem cueArm_keepsLaws (loop : BitVec 16) (kind : Byte) : KeepsLaws (.cueArm loop kind) := by
  refine fun s => ⟨_, rfl, .spares ?_⟩
  split
  · exact .refusal _ s
  · exact cueChecks_spares (withCue_spares fun slot c => s.armFound_spares _ slot c)

theorem cueProtect_keepsLaws (loop : BitVec 16) (value : Byte) : KeepsLaws (.cueProtect loop value) := by
  refine fun s => ⟨_, rfl, .spares ?_⟩
  split
  · exact .refusal _ s
  · exact cueChecks_spares (withCue_spares fun _ _ => rfl)

theorem takeCircle_keepsLaws (loop : BitVec 16) (take value : Byte) : KeepsLaws (.takeCircle loop take value) := by
  refine fun s => ⟨_, rfl, .spares ?_⟩
  split
  · exact .refusal _ s
  · exact takeChecks_spares fun _ => rfl

/-! ### Commands of the Position Reader and the Punch Unit -/

theorem setRate_keepsLaws (code : Byte) : KeepsLaws (.setRate code) := by
  refine fun s => ⟨_, rfl, .owner ?_⟩
  split
  · exact .refl s
  · dsimp only
    split
    · exact .refl s
    · exact s.setRate_keepsLaws _

theorem setLines_keepsLaws (manual activeLow : LineSet) : KeepsLaws (.setLines manual activeLow) := by
  refine fun s => ⟨_, rfl, .owner ?_⟩
  dsimp only
  split
  · exact .refl s
  · next hb =>
    have hset : LawsKept s { s with pch := s.pch.setLines manual activeLow } :=
      .of_pch rfl rfl fun h => Pch.setLines_lawful h (by simpa using hb)
    exact .ite (fun _ => hset) fun _ => hset.blocks_right (State.raise_blocks _ _)

theorem punchManual_keepsLaws (lines : LineSet) (action : Byte) : KeepsLaws (.punchManual lines action) := by
  refine fun s => ⟨_, rfl, .owner ?_⟩
  split
  · exact .refl s
  · split_ifs with _ hu
    · exact .refl s
    · exact .refl s
    · exact .refl s
    · refine State.punchManual_keepsLaws _ ?_
      cases h : s.pch.unit with
      | normal => rfl
      | guarded => exact absurd h hu

theorem guardRelease_keepsLaws : KeepsLaws .guardRelease := by
  refine fun s => ⟨_, rfl, .owner ?_⟩
  dsimp only
  split
  · refine .of_pch rfl rfl fun h => ?_
    obtain ⟨hlines, -⟩ := (Pch.lawful_iff _).mp h
    exact (Pch.lawful_iff _).mpr ⟨hlines, fun hg => by cases hg⟩
  · exact .refl s

/-! ### Events -/

theorem rxByte_keepsLaws (byte : Byte) (framingError : Bool) : KeepsLaws (.rxByte byte framingError) := by
  refine fun s => ⟨_, rfl, .of_blocks ?_⟩
  split
  · rfl
  · split
    · rfl
    · split
      · split <;> rfl
      · split <;> rfl
      · split <;> rfl
      · exact State.judge_blocks _ _ _ _

theorem watchTimerExpiry_keepsLaws : KeepsLaws .watchTimerExpiry := by
  refine fun s => ⟨_, rfl, ?_⟩
  split
  · next hs => exact State.missing_keepsLaws hs
  · exact .refl s
  · exact .refl s
  · exact .refl s

/-- The count rises below the limit, which is at most 30 (R74, R80). -/
theorem freewheelTimerExpiry_keepsLaws : KeepsLaws .freewheelTimerExpiry := by
  refine fun s => ⟨_, rfl, ?_⟩
  split
  · next hs =>
    refine .ite (fun hcount => State.edgePos_keepsLaws fun h => ?_) fun _ => State.enterPos_keepsLaws Pos.lawful_stop
    obtain ⟨hn, -, hlimit, hheld⟩ := (Pos.lawful_iff _).mp h
    obtain ⟨hperiod, -, -⟩ := (Pos.held_freewheel hs).mp hheld
    refine (Pos.lawful_iff _).mpr ⟨nextFrame_lt hn _, firstCell_le _, hlimit,
      (Pos.held_freewheel ?_).mpr ⟨hperiod, Nat.le_add_left 1 _, Nat.le_trans (Nat.succ_le_of_lt hcount) hlimit⟩⟩
    exact hs
  · exact .refl s
  · exact .refl s
  · exact .refl s

theorem posTick_keepsLaws : KeepsLaws .posTick := by
  refine fun s => ⟨_, rfl, .ite (fun hs => ?_) fun _ => .refl s⟩
  split
  · next b hb => exact (State.tickCell_keepsLaws hs hb).blocks_right rfl
  · exact .refl s

theorem pscStateEvent_keepsLaws (state : PosState) (dir : Dir) : KeepsLaws (.pscStateEvent state dir) := by
  refine fun s => ⟨_, rfl, .of_blocks ?_⟩
  cases state with
  | stopped => exact State.abortAll_blocks _ _ _
  | unknown | locked | freewheel => rfl

theorem pchFrameEdge_keepsLaws (edge : FrameEdge) : KeepsLaws (.pchFrameEdge edge) := by
  intro s
  have hedge : LawsKept s { s.taken (.pchFrameEdge edge) with pch := { s.pch with lastEdge := some edge.n } } :=
    .of_pch rfl rfl id
  have hout := State.foldl_keepsLaws (State.transferDue_keepsLaws .punchOut edge.n) allCtx
  have hin := State.foldl_keepsLaws (State.transferDue_keepsLaws .punchIn edge.n) allCtx
  exact ⟨_, rfl, ((hedge.trans (hout _)).trans (hin _)).trans (State.transferStagedManual_keepsLaws _)⟩

theorem pchStateEvent_keepsLaws (state : PosState) (dir : Dir) : KeepsLaws (.pchStateEvent state dir) := by
  intro s
  have hview : LawsKept s { s.taken (.pchStateEvent state dir) with pch := { s.pch with view := state } } :=
    .of_pch rfl rfl id
  refine ⟨_, rfl, ?_⟩
  cases state with
  | stopped | unknown => exact hview.trans (State.transferStagedManual_keepsLaws _)
  | locked | freewheel => exact hview

theorem State.tripGuard_keepsLaws (s : State) : LawsKept s s.tripGuard :=
  LawsKept.blocks_right (t := { s with pch := s.pch.trip }) (.of_pch rfl rfl fun _ => Pch.trip_lawful _) (State.raise_blocks _ _)

theorem guardTrip_keepsLaws (fall : GuardFall) : KeepsLaws (.guardTrip fall) := by
  refine fun s => ⟨_, rfl, ?_⟩
  have hfalls : LawsKept s (s.setGuard false) := .of_blocks rfl
  cases fall with
  | line => exact .ite (fun _ => .of_blocks rfl) fun _ => .refl s
  | taken =>
    exact .ite (fun _ => (LawsKept.of_blocks (s.taken_blocks _)).trans (State.tripGuard_keepsLaws _)) fun _ =>
      hfalls.trans (State.tripGuard_keepsLaws _)

theorem descriptorSent_keepsLaws : KeepsLaws .descriptorSent := by
  refine fun s => ⟨_, rfl, .of_blocks ?_⟩
  split <;> rfl

theorem vgtStateEvent_keepsLaws (state : PosState) (dir : Dir) : KeepsLaws (.vgtStateEvent state dir) :=
  fun _ => ⟨_, rfl, .of_blocks (by cases state <;> rfl)⟩

theorem shiftStep_keepsLaws : KeepsLaws .shiftStep := by
  refine fun s => ⟨_, rfl, .of_blocks ?_⟩
  split
  · split
    · exact State.shiftAt_blocks _ _ s
    · rfl
    · rfl
  · rfl

theorem copyStep_keepsLaws : KeepsLaws .copyStep := by
  refine fun s => ⟨_, rfl, .of_blocks ?_⟩
  split
  · split
    · split
      · exact State.copyAt_blocks _ _ _ _ s
      · rfl
    · rfl
  · rfl

theorem State.takeInTurn_keepsLaws (i : Instr) {f : State → State} (hf : ∀ x, LawsKept x (f x)) (s : State) :
    LawsKept s (s.takeInTurn i f) := by
  obtain ⟨-, h⟩ | ⟨-, h⟩ := s.takeInTurn_cases i f
  · rw [h]; exact (LawsKept.of_blocks (s.taken_blocks i)).trans (hf _)
  · rw [h]; exact .refl s

/-- Every command and event keeps the laws of the three blocks. -/
theorem exec_keepsLaws (i : Instr) : KeepsLaws i := by
  cases i with
  -- the resets
  | coldReset => exact coldReset_keepsLaws
  | warmReset byLine => exact fun s => ⟨_, rfl, s.warm_keepsLaws.blocks_right rfl⟩
  | resetRelease => exact fun s => ⟨_, rfl, .ite (fun _ => .of_blocks rfl) fun _ => .refl s⟩
  -- commands
  | status => exact fun _ => ⟨_, rfl, .spares rfl⟩
  | restart => exact fun _ => ⟨_, rfl, .spares rfl⟩
  | setRate code => exact setRate_keepsLaws code
  | setFreewheel limit => exact fun s => ⟨_, rfl, .owner (s.setLimit_keepsLaws (Nat.min_le_right _ _))⟩
  | positionRead => exact fun _ => ⟨_, rfl, .spares rfl⟩
  | setVoice qualify allowance => exact fun _ => ⟨_, rfl, .spares rfl⟩
  | setFlash length => exact fun _ => ⟨_, rfl, .spares rfl⟩
  | setLines manual activeLow => exact setLines_keepsLaws manual activeLow
  | punchManual lines action => exact punchManual_keepsLaws lines action
  | guardRelease => exact guardRelease_keepsLaws
  | passAbort context => exact passAbort_keepsLaws context
  | reelSelectPlay reel form =>
    exact fun s => ⟨_, rfl, .spares (withForm_spares (withReel_spares fun r => s.selectPlay_spares r))⟩
  | reelSelectEdit reel => exact fun _ => ⟨_, rfl, .spares (withReel_spares fun _ => rfl)⟩
  | reelSelectTag reel tag form => exact fun _ => ⟨_, rfl, .spares (withForm_spares (withReel_spares fun _ => rfl))⟩
  | reelInfo reel => exact fun _ => ⟨_, rfl, .spares (withReel_spares fun _ => rfl)⟩
  | reelClear => exact reelClear_keepsLaws
  | reelShift delta => exact fun s => ⟨_, rfl, .spares (.ite (s.startShift_spares _) (.refusal _ s))⟩
  | reelCopy source dest delta => exact reelCopy_keepsLaws source dest delta
  | reelResume => exact fun s => ⟨_, rfl, .spares s.resume_spares⟩
  | cueWrite loop f => exact cueWrite_keepsLaws loop f
  | cueAmend loop reserved f => exact cueAmend_keepsLaws loop reserved f
  | cueRetire loop =>
    exact fun s => ⟨_, rfl, .spares (cueChecks_spares (withCue_spares fun slot c => .check (s.retireCue_blocks slot c)))⟩
  | cueRead loop => exact fun s => ⟨_, rfl, .spares (.ite (withCue_spares fun _ _ => rfl) (.refusal _ s))⟩
  | cueNext label => exact cueNext_keepsLaws label
  | cueArm loop kind => exact cueArm_keepsLaws loop kind
  | cueDisarm loop =>
    exact fun s => ⟨_, rfl, .spares (cueChecks_spares (withCue_spares fun slot c => s.disarmFound_spares slot c))⟩
  | cueProtect loop value => exact cueProtect_keepsLaws loop value
  | takeCircle loop take value => exact takeCircle_keepsLaws loop take value
  | takeRetire loop take => exact fun s => ⟨_, rfl, .spares (takeChecks_spares fun slot => s.retireTake_blocks slot _)⟩
  -- the link
  | rxByte byte framingError => exact rxByte_keepsLaws byte framingError
  | gapTimerExpiry => exact fun _ => ⟨_, rfl, .of_blocks rfl⟩
  | txMessageEnd => exact fun s => ⟨_, rfl, .ite (fun _ => s.warm_keepsLaws) fun _ => .of_blocks (State.transmit_blocks _)⟩
  -- the Position Reader
  | ltcFrame frame =>
    exact fun s => ⟨_, rfl, .ite (fun _ => (State.testAgreement_keepsLaws frame s).trans (State.takeFrame_keepsLaws frame _))
      fun _ => .refl s⟩
  | watchTimerExpiry => exact watchTimerExpiry_keepsLaws
  | freewheelTimerExpiry => exact freewheelTimerExpiry_keepsLaws
  | posTick => exact posTick_keepsLaws
  -- the Pass Scheduler
  | pscFrameEdge edge => exact fun _ => ⟨_, rfl, .of_blocks (State.edgeWork_blocks _ _)⟩
  | pscStateEvent state dir => exact pscStateEvent_keepsLaws state dir
  | punchReport report => exact fun s => ⟨_, rfl, .of_blocks (State.takeInTurn_blocks _ (State.applyReport_blocks report) s)⟩
  | guardReport =>
    exact fun s => ⟨_, rfl, .of_blocks (State.takeInTurn_blocks _ (State.foldl_blocks State.guardCtx_blocks allCtx) s)⟩
  -- the Punch Unit
  | pchFrameEdge edge => exact pchFrameEdge_keepsLaws edge
  | stageRequest request => exact fun s => ⟨_, rfl, State.takeInTurn_keepsLaws _ (State.stageEntry_keepsLaws _ _) s⟩
  | release ctx loop => exact fun s => ⟨_, rfl, State.takeInTurn_keepsLaws _ (State.releaseLines_keepsLaws ctx) s⟩
  | pchStateEvent state dir => exact pchStateEvent_keepsLaws state dir
  | guardTrip fall => exact guardTrip_keepsLaws fall
  | guardRise => exact fun _ => ⟨_, rfl, .of_blocks rfl⟩
  -- the Count-In Unit
  | ciuTick tick dir => exact fun _ => ⟨_, rfl, .of_ciu rfl rfl (Ciu.tick_lawful tick dir)⟩
  | entryHandover ctx start =>
    exact fun _ => ⟨_, rfl, .of_ciu rfl rfl fun h => Ciu.setBeat_lawful ctx h (Beat.enter_lawful start _ _)⟩
  | freeHandover ctx => exact fun _ => ⟨_, rfl, .of_ciu rfl rfl fun h => Ciu.setBeat_lawful ctx h rfl⟩
  | toneHalfWave => exact fun _ => ⟨_, rfl, .of_ciu rfl rfl Ciu.halfWave_lawful⟩
  -- the Overlay Composer and the Voice Gate
  | laneReport report => exact fun s => ⟨_, rfl, .of_blocks (State.takeInTurn_blocks _ (State.draw_blocks report) s)⟩
  | ovlStateEvent state dir =>
    exact fun s => ⟨_, rfl, .of_blocks (State.takeInTurn_keeps State.blocks _ _ s (fun _ => rfl) rfl)⟩
  | descriptorSent => exact descriptorSent_keepsLaws
  | voiceEdge rising => exact fun _ => ⟨_, rfl, .of_blocks rfl⟩
  | vgtTick tick dir => exact fun _ => ⟨_, rfl, .of_blocks rfl⟩
  | vgtStateEvent state dir => exact vgtStateEvent_keepsLaws state dir
  | onsetReport onset qualifying allowance =>
    exact fun _ => ⟨_, rfl, .of_blocks (State.foldl_blocks (State.hearCtx_blocks onset qualifying allowance) allCtx _)⟩
  -- background work
  | shiftStep => exact shiftStep_keepsLaws
  | copyStep => exact copyStep_keepsLaws

end Sys2Proof.Machine

open Sys2Proof.Machine in
/-- Settles O58: the step takes one command or event, and each keeps the three laws (`exec_keepsLaws`). -/
theorem everyStepKeepsTheBlockLaws : Obligations.EveryStepKeepsTheBlockLaws := by
  intro s t h
  unfold step at h
  split at h
  · next i rest _ =>
    obtain ⟨u, hu, hpos, hpch, hciu⟩ := exec_keepsLaws i { s with pending := rest }
    obtain rfl := Host.Outcome.next.inj (hu.symm.trans h)
    exact ⟨hpos, hpch, hciu⟩
  · obtain rfl := Host.Outcome.next.inj h
    exact ⟨id, id, id⟩
end

section
/-! Labels and frame numbers (R65 to R67): the non-drop split of a number and its inverse at any frame rate, and the drop-frame
correction that carries the one over to the other. -/

namespace Sys2Proof.Machine

/-! ## Validity -/

theorem Label.inRange_iff (l : Label) (fps : Nat) : l.inRange fps = true ↔
    l.hh.toNat ≤ 23 ∧ l.mm.toNat ≤ 59 ∧ l.ss.toNat ≤ 59 ∧ l.ff.toNat < fps := by
  simp [Label.inRange, and_assoc]

theorem Label.dropped_iff (l : Label) : l.dropped = true ↔
    l.ss.toNat = 0 ∧ l.ff.toNat ≤ 1 ∧ l.mm.toNat % 10 ≠ 0 := by
  simp [Label.dropped, and_assoc]

theorem isDrop_of_ne {rate : Rate} (h : rate ≠ .drop30) : rate.isDrop = false := by
  cases rate with
  | drop30 => exact absurd rfl h
  | fps24 | fps25 | fps30 => rfl

theorem Label.valid_nonDrop_iff {rate : Rate} (h : rate ≠ .drop30) (l : Label) : l.valid rate = true ↔
    l.hh.toNat ≤ 23 ∧ l.mm.toNat ≤ 59 ∧ l.ss.toNat ≤ 59 ∧ l.ff.toNat < rate.fps := by
  simp [Label.valid, isDrop_of_ne h, Label.inRange_iff]

theorem Label.valid_drop_iff (l : Label) : l.valid .drop30 = true ↔
    l.hh.toNat ≤ 23 ∧ l.mm.toNat ≤ 59 ∧ l.ss.toNat ≤ 59 ∧ l.ff.toNat < 30
      ∧ ¬ (l.ss.toNat = 0 ∧ l.ff.toNat ≤ 1 ∧ l.mm.toNat % 10 ≠ 0) := by
  rw [← Label.dropped_iff, Label.valid, Bool.and_eq_true, Label.inRange_iff]
  simp [Rate.isDrop, Rate.fps, and_assoc]

/-! ## The non-drop split -/

/-- The number that the fields of a label count to without drop-frame (R65). -/
def Label.count (l : Label) (fps : Nat) : Nat := ((l.hh.toNat * 60 + l.mm.toNat) * 60 + l.ss.toNat) * fps + l.ff.toNat

/-- The fields of a split number within the day: they are in range and count to the number. -/
theorem splitFrame_fields {n fps : Nat} (hfps : fps ≤ 256) (hn : n < 86400 * fps) :
    (splitFrame n fps).inRange fps = true ∧ Label.count (splitFrame n fps) fps = n := by
  have hpos : 0 < fps := by omega
  have hsec : n / fps < 86400 := Nat.div_lt_of_lt_mul (by rwa [Nat.mul_comm])
  have hff : n % fps < fps := Nat.mod_lt n hpos
  have byte {m : Nat} (hm : m < 256) : (BitVec.ofNat 8 m).toNat = m := by rw [BitVec.toNat_ofNat]; exact Nat.mod_eq_of_lt hm
  have hsplit : Label.count (splitFrame n fps) fps = n / fps * fps + n % fps ∧ (splitFrame n fps).inRange fps = true := by
    rw [Label.inRange_iff, Label.count, splitFrame]
    generalize n / fps = sec at hsec ⊢
    dsimp only
    rw [byte (show sec / 3600 < 256 by omega), byte (show sec / 60 % 60 < 256 by omega),
      byte (show sec % 60 < 256 by omega), byte (show n % fps < 256 by omega)]
    refine ⟨?_, by omega, by omega, by omega, hff⟩
    rw [show (sec / 3600 * 60 + sec / 60 % 60) * 60 + sec % 60 = sec by omega]
  exact ⟨hsplit.2, hsplit.1.trans (Nat.div_add_mod' n fps)⟩

/-- The split of the number that the fields of a label count to gives the label back. -/
theorem splitFrame_count {l : Label} {fps : Nat} (h : l.inRange fps = true) : splitFrame (Label.count l fps) fps = l := by
  obtain ⟨hh, mm, ss, ff⟩ := (Label.inRange_iff l fps).mp h
  have hpos : 0 < fps := by omega
  have hdiv : Label.count l fps / fps = (l.hh.toNat * 60 + l.mm.toNat) * 60 + l.ss.toNat := by
    rw [Label.count, Nat.mul_comm, Nat.mul_add_div hpos, Nat.div_eq_of_lt ff, Nat.add_zero]
  have hmod : Label.count l fps % fps = l.ff.toNat := by
    rw [Label.count, Nat.mul_comm, Nat.mul_add_mod, Nat.mod_eq_of_lt ff]
  have field {m : Nat} (x : Byte) (hx : m = x.toNat) : BitVec.ofNat 8 m = x := by rw [hx, BitVec.ofNat_toNat, BitVec.setWidth_eq]
  unfold splitFrame
  rw [hdiv, hmod]
  dsimp only
  rw [field l.hh (by omega), field l.mm (by omega), field l.ss (by omega), field l.ff rfl]

theorem Label.number_nonDrop {rate : Rate} (h : rate ≠ .drop30) (l : Label) : l.number rate = Label.count l rate.fps := by
  simp [Label.number, isDrop_of_ne h, Label.count]

theorem labelOf_nonDrop {rate : Rate} (h : rate ≠ .drop30) (n : Nat) : labelOf rate n = splitFrame n rate.fps := by
  simp [labelOf, isDrop_of_ne h]

theorem fDay_nonDrop {rate : Rate} (h : rate ≠ .drop30) : rate.fDay = 86400 * rate.fps := by
  cases rate with
  | drop30 => exact absurd rfl h
  | fps24 | fps25 | fps30 => rfl

end Sys2Proof.Machine

open Sys2Proof Sys2Proof.Machine in
/-- Settles O15: the split and the count of a label are each other's inverse (`splitFrame_count`, `splitFrame_fields`). -/
theorem labelsCountTheDayNonDrop : Obligations.LabelsCountTheDayNonDrop := by
  intro rate hrate
  refine ⟨Label.valid_nonDrop_iff hrate, fun l hl => ?_, fun n hn => ?_⟩
  · have hrange := (Label.inRange_iff l _).mpr ((Label.valid_nonDrop_iff hrate l).mp hl)
    refine ⟨Label.number_nonDrop hrate l, Label.number_lt_fDay hl, ?_⟩
    rw [labelOf_nonDrop hrate, Label.number_nonDrop hrate, splitFrame_count hrange]
  · have hfps : rate.fps ≤ 256 := by cases rate <;> decide
    obtain ⟨hrange, hcount⟩ := splitFrame_fields hfps (fDay_nonDrop hrate ▸ hn)
    have hvalid := (Label.valid_nonDrop_iff hrate _).mpr ((Label.inRange_iff _ _).mp hrange)
    rw [labelOf_nonDrop hrate, Label.frame_of_valid hvalid, Label.number_nonDrop hrate, hcount]

namespace Sys2Proof.Machine

/-! ## Drop-frame -/

/-- The frames that drop-frame code leaves out before a label: two in each minute but every tenth (R66). -/
def Label.leftOut (l : Label) : Nat :=
  2 * ((l.hh.toNat * 60 + l.mm.toNat) - (l.hh.toNat * 60 + l.mm.toNat) / 10)

theorem Label.number_drop (l : Label) : l.number .drop30 = Label.count l 30 - Label.leftOut l := by
  simp only [Label.number, Rate.isDrop, if_true, Label.count, Label.leftOut]
  congr 1
  omega

/-- The correction of a number that counts `d` ten minutes, `m` minutes and `r` frames (R66, R67): 17982 frames in ten minutes,
1800 in the first of them, 1798 in each other, which begins with frame 2. -/
theorem dropCorrection_eq {d m r : Nat} (hm : m < 10) (hr : r < 1800) (hkept : m = 0 ∨ 2 ≤ r) :
    dropCorrection (17982 * d + 1798 * m + r) = 18 * d + 2 * m := by
  have hdiv : (17982 * d + 1798 * m + r) / 17982 = d := by omega
  have hmod : (17982 * d + 1798 * m + r) % 17982 = 1798 * m + r := by omega
  simp only [dropCorrection, hdiv, hmod]
  split <;> omega

/-- The correction of R67 puts back what R66 leaves out. -/
theorem dropCorrection_number {l : Label} (h : l.valid .drop30 = true) :
    l.number .drop30 + dropCorrection (l.number .drop30) = Label.count l 30 := by
  obtain ⟨hh, mm, ss, ff, hkept⟩ := (Label.valid_drop_iff l).mp h
  have hminutes : 10 * ((l.hh.toNat * 60 + l.mm.toNat) / 10) + l.mm.toNat % 10 = l.hh.toNat * 60 + l.mm.toNat := by omega
  have hnumber : l.number .drop30 = 17982 * ((l.hh.toNat * 60 + l.mm.toNat) / 10) + 1798 * (l.mm.toNat % 10)
      + (l.ss.toNat * 30 + l.ff.toNat) := by
    rw [Label.number_drop, Label.count, Label.leftOut]
    omega
  rw [hnumber, dropCorrection_eq (by omega) (by omega) (by omega), Label.count]
  omega

/-- A number of the day as ten minutes, minutes and frames, none of them left out (R66). -/
theorem exists_dropSplit {n : Nat} (h : n ≤ 2589407) : ∃ d m r : Nat, d < 144 ∧ m < 10 ∧ r < 1800 ∧ (m = 0 ∨ 2 ≤ r)
    ∧ n = 17982 * d + 1798 * m + r := by
  by_cases hfirst : n % 17982 < 1800
  · exact ⟨n / 17982, 0, n % 17982, by omega, by omega, hfirst, .inl rfl, by omega⟩
  · exact ⟨n / 17982, (n % 17982 - 2) / 1798, (n % 17982 - 2) % 1798 + 2, by omega, by omega, by omega, .inr (by omega),
      by omega⟩

/-- A number with its correction splits into a label that is not left out and that has this number. -/
theorem splitFrame_corrected {n : Nat} (h : n ≤ 2589407) :
    (splitFrame (n + dropCorrection n) 30).valid .drop30 = true ∧ (splitFrame (n + dropCorrection n) 30).number .drop30 = n := by
  obtain ⟨d, m, r, hd, hm, hr, hkept, rfl⟩ := exists_dropSplit h
  rw [dropCorrection_eq hm hr hkept]
  obtain ⟨hrange, hcount⟩ := splitFrame_fields (n := 17982 * d + 1798 * m + r + (18 * d + 2 * m)) (fps := 30) (by decide)
    (by omega)
  obtain ⟨hh, mm, ss, ff⟩ := (Label.inRange_iff _ _).mp hrange
  rw [Label.valid_drop_iff, Label.number_drop]
  rw [Label.count] at hcount ⊢
  rw [Label.leftOut]
  refine ⟨⟨hh, mm, ss, ff, ?_⟩, ?_⟩ <;> omega

end Sys2Proof.Machine

open Sys2Proof Sys2Proof.Machine in
/-- Settles O16: the correction of a number turns its drop-frame label into the non-drop one (`dropCorrection_number`,
`splitFrame_corrected`). -/
theorem labelsCountTheDayDrop : Obligations.LabelsCountTheDayDrop := by
  have hlabel (n : Nat) : labelOf .drop30 n = splitFrame (n + dropCorrection n) 30 := rfl
  refine ⟨Label.valid_drop_iff, fun l hl => ⟨?_, Nat.le_of_lt_succ (Label.number_lt_fDay hl), ?_⟩, fun n hn => ⟨?_, ?_⟩⟩
  · rw [Label.number_drop, Label.count, Label.leftOut]
    omega
  · have hrange : l.inRange 30 = true := (Bool.and_eq_true_iff.mp hl).1
    rw [hlabel, dropCorrection_number hl, splitFrame_count hrange]
  · obtain ⟨hvalid, hnumber⟩ := splitFrame_corrected hn
    rw [hlabel, Label.frame_of_valid hvalid, hnumber]
  · rw [hlabel, dropCorrection]
    split_ifs <;> rfl
end

section
/-! The Position Reader: what the state events, edges and ticks it raises come to, what the rate agreement of a completed
frame does (R63, R77 to R79), and how good, bad and missing frames move the position (R71 to R75). -/

namespace Sys2Proof.Machine

/-! ## What the reader raises -/

/-- A position entered: the state event goes to its four takers (R79). -/
theorem State.enterPos_apart (p : Pos) (s : State) :
    (s.enterPos p).apart = { s with pos := p, raised := s.raised ++ stateEvents p.state p.dir }.apart :=
  State.raise_apart _ _

theorem State.enterPos_noticed (p : Pos) {s : State} (room : s.lnk.roomFor 1) :
    Noticed [.position p.state p.dir] s (s.enterPos p) :=
  (Noticed.of_lnk rfl rfl rfl).trans (State.raise_noticed _ (State.post _ { s with pos := p }) room)

/-- A frame edge raised: it goes to its two takers, and the tick of its first cell follows (R77, R78). -/
theorem State.edgePos_eq (p : Pos) (jump resume : Bool) (s : State) :
    s.edgePos p jump resume = { s with pos := p, raised := s.raised ++ edgeEvents (p.edge jump resume) p.b } := by
  simp only [State.edgePos, State.raiseEdge, State.raiseTick, State.post, List.append_assoc]
  rfl

theorem State.edgePos_noticed (p : Pos) (jump resume : Bool) (s : State) : Noticed [] s (s.edgePos p jump resume) :=
  Noticed.of_lnk rfl rfl rfl

/-- Apart from the link, a position moved and events raised come to the same in states that differ in the position alone. -/
theorem State.apart_moved {s u : State} {q : Pos} (h : u.apart = { s with pos := q }.apart) (p : Pos) (es : List Instr) :
    { u with pos := p, raised := u.raised ++ es }.apart = { s with pos := p, raised := s.raised ++ es }.apart := by
  obtain ⟨hpending, -, hcst, hcfu, hpsc, hciu, hovl, hpch, hvgt, hboard, hraised⟩ := State.fields_of_apart h
  exact State.apart_ext hpending rfl hcst hcfu hpsc hciu hovl hpch hvgt hboard (congrArg (· ++ es) hraised)

section
variable {s u : State} {q p : Pos} {e : FrameEdge} {jump resume : Bool} (h : u.apart = { s with pos := q }.apart)
  (he : p.edge jump resume = e)
include h

/-- A position entered after an event that changed the position alone. -/
theorem State.enterPos_after :
    (u.enterPos p).apart = { s with pos := p, raised := s.raised ++ stateEvents p.state p.dir }.apart :=
  (State.enterPos_apart p u).trans (State.apart_moved h p _)

include he

/-- A frame edge raised after such an event. -/
theorem State.edgePos_after :
    (u.edgePos p jump resume).apart = { s with pos := p, raised := s.raised ++ edgeEvents e p.b }.apart := by
  rw [State.edgePos_eq, he]
  exact State.apart_moved h p _

/-- A position entered and its first frame edge raised after such an event. -/
theorem State.enterEdge_after : ((u.enterPos p).edgePos p jump resume).apart =
    { s with pos := p, raised := s.raised ++ stateEvents p.state p.dir ++ edgeEvents e p.b }.apart :=
  State.edgePos_after (s := { s with raised := s.raised ++ stateEvents p.state p.dir }) (State.enterPos_after h) he

end

theorem State.enterEdge_noticed (p : Pos) (jump resume : Bool) {s : State} (room : s.lnk.roomFor 1) :
    Noticed [.position p.state p.dir] s ((s.enterPos p).edgePos p jump resume) :=
  (State.enterPos_noticed p room).trans (State.edgePos_noticed p jump resume _)

theorem firstCell_eq (dir : Dir) : firstCell dir = if dir = .forward then 0 else 79 := by cases dir <;> rfl

/-! ## The rate agreement of a completed frame (R63) -/

theorem State.testAgreement_agrees {f : LtcFrame} {s : State} (h : dropFlag f = s.pos.rate.isDrop) :
    s.testAgreement f = { s with pos := { s.pos with mismatch := false } } :=
  if_pos ((agrees_iff _ f).mpr h)

/-- The notices of a rate agreement: RATE_MISMATCH at the first frame that disagrees (R63). -/
def State.mismatchNotices (f : LtcFrame) (s : State) : List Notice :=
  if dropFlag f ≠ s.pos.rate.isDrop ∧ s.pos.mismatch = false then [.rateMismatch (dropFlag f)] else []

theorem State.mismatchNotices_agrees {f : LtcFrame} {s : State} (h : dropFlag f = s.pos.rate.isDrop) :
    s.mismatchNotices f = [] := if_neg fun hc => hc.1 h

theorem State.mismatchNotices_disagrees {f : LtcFrame} {s : State} (h : dropFlag f ≠ s.pos.rate.isDrop) :
    s.mismatchNotices f = if s.pos.mismatch then [] else [.rateMismatch (dropFlag f)] := by
  cases hm : s.pos.mismatch <;> simp [State.mismatchNotices, h, hm]

/-- The mismatch flag follows the frame, and nothing else outside the link changes. -/
theorem State.testAgreement_apart (f : LtcFrame) (s : State) : (s.testAgreement f).apart =
    { s with pos := { s.pos with mismatch := dropFlag f != s.pos.rate.isDrop } }.apart := by
  by_cases h : dropFlag f = s.pos.rate.isDrop
  · rw [State.testAgreement_agrees h, h, bne_self_eq_false]
  · have hflag : (dropFlag f != s.pos.rate.isDrop) = true := by simpa using h
    rw [State.testAgreement, if_neg (mt (agrees_iff _ f).mp h), hflag]
    split
    · next hm => rw [← hm]
    · exact State.raise_apart _ _

theorem State.testAgreement_pos (f : LtcFrame) (s : State) :
    (s.testAgreement f).pos = { s.pos with mismatch := dropFlag f != s.pos.rate.isDrop } :=
  (State.fields_of_apart (s.testAgreement_apart f)).2.1

theorem State.testAgreement_told (f : LtcFrame) (s : State) : Told (s.mismatchNotices f) s (s.testAgreement f) := by
  by_cases h : dropFlag f = s.pos.rate.isDrop
  · rw [State.testAgreement_agrees h, State.mismatchNotices_agrees h]
    exact Told.of_lnk rfl rfl rfl
  · rw [State.testAgreement, if_neg (mt (agrees_iff _ f).mp h), State.mismatchNotices_disagrees h]
    split
    · exact Told.refl s
    · have hflag : Told [] s { s with pos := { s.pos with mismatch := true } } := Told.of_lnk rfl rfl rfl
      exact hflag.trans (State.raise_told _ _)

theorem State.mismatchNotices_length (f : LtcFrame) (s : State) : (s.mismatchNotices f).length ≤ 1 := by
  unfold State.mismatchNotices; split <;> simp

/-- A rate agreement takes at most one place of the queue. -/
theorem State.testAgreement_noticed (f : LtcFrame) {s : State} (room : s.lnk.roomFor 2) :
    Noticed (s.mismatchNotices f) s (s.testAgreement f) ∧ (s.testAgreement f).lnk.roomFor 1 := by
  have hlength := s.mismatchNotices_length f
  have htold := s.testAgreement_told f
  have hnotices := htold.length
  unfold Link.roomFor at room ⊢
  exact ⟨htold.noticed (.inl (by unfold Link.roomFor; omega)), by omega⟩

/-! ## A completed frame -/

theorem execLtcFrame_sync {f : LtcFrame} (h : syncPresent f = true) (s : State) :
    exec (.ltcFrame f) s = .next ((s.testAgreement f).takeFrame f) :=
  congrArg Host.Outcome.next (if_pos h)

/-- A good frame carries the drop-frame flag of the rate, so it clears the mismatch flag (R62, R63). -/
theorem execLtcFrame_good {f : LtcFrame} {s : State} (h : syncPresent f = true) (hg : goodFrame s.pos.rate f = true) :
    exec (.ltcFrame f) s = .next (State.takeFrame f { s with pos := { s.pos with mismatch := false } }) := by
  obtain ⟨-, -, hflag, -, -⟩ := (goodFrame_iff _ f).mp hg
  rw [execLtcFrame_sync h, State.testAgreement_agrees hflag]

theorem State.takeFrame_unlocked {f : LtcFrame} {s : State} (hg : goodFrame s.pos.rate f = true)
    (hs : s.pos.state = .unknown ∨ s.pos.state = .stopped) : s.takeFrame f = s.lock ((labelRead f).number s.pos.rate) f := by
  obtain hs | hs := hs <;> simp only [State.takeFrame, hs, hg]

theorem State.takeFrame_locked {f : LtcFrame} {s : State} (hg : goodFrame s.pos.rate f = true) (hs : s.pos.state = .locked) :
    s.takeFrame f = s.continueLocked ((labelRead f).number s.pos.rate) f := by
  simp only [State.takeFrame, hs, hg]

theorem State.takeFrame_freewheel {f : LtcFrame} {s : State} (hg : goodFrame s.pos.rate f = true)
    (hs : s.pos.state = .freewheel) : s.takeFrame f = s.endFreewheel ((labelRead f).number s.pos.rate) f := by
  simp only [State.takeFrame, hs, hg]

theorem State.takeFrame_missing {f : LtcFrame} {s : State} (hg : goodFrame s.pos.rate f = false) (hs : s.pos.state = .locked) :
    s.takeFrame f = s.missing := by
  simp only [State.takeFrame, hs, hg]

/-- A bad frame outside LOCKED is taken by no position state (R62). -/
theorem State.takeFrame_bad {f : LtcFrame} {s : State} (hg : goodFrame s.pos.rate f = false) (hs : s.pos.state ≠ .locked) :
    s.takeFrame f = s := by
  cases h : s.pos.state with
  | locked => exact absurd h hs
  | unknown | freewheel | stopped => simp only [State.takeFrame, h, hg]

end Sys2Proof.Machine

open Sys2Proof Sys2Proof.Machine in
/-- Settles O18: the position locked is entered and raises its edge; the position continued raises the edge alone. -/
theorem goodFramesMoveThePosition : Obligations.GoodFramesMoveThePosition := by
  intro f s hsync hg
  have hexec := execLtcFrame_good hsync hg
  rw [← firstCell_eq]
  refine ⟨fun hs room => ⟨_, hexec.trans (congrArg _ (State.takeFrame_unlocked hg hs)), ?_, ?_⟩,
    fun hs => ⟨_, hexec.trans (congrArg _ (State.takeFrame_locked hg hs)), ?_, ?_⟩⟩
  · have hcleared : Noticed [] s { s with pos := { s.pos with mismatch := false } } := Noticed.of_lnk rfl rfl rfl
    exact hcleared.trans (State.enterEdge_noticed _ _ _ room)
  · exact State.enterEdge_after (q := { s.pos with mismatch := false }) rfl (by simp [Pos.edge, Pos.inSpeed, Pos.speed, Pos.atFrame])
  · exact Noticed.of_lnk rfl rfl rfl
  · refine State.edgePos_after (q := { s.pos with mismatch := false }) rfl ?_
    cases hd : f.dir <;>
      simp [Pos.edge, Pos.inSpeed, Pos.speed, Pos.atFrame, hs, isRunning, nextFrame, Bool.decide_and, beq_eq_decide]

namespace Sys2Proof.Machine

/-! ## A missing frame, and the stop of the position (R73, R74) -/

/-- The position stopped after an event that raised the notices `before` and left the mismatch flag `mismatch`. -/
def Stopped (before : List Notice) (mismatch : Bool) (s t : State) : Prop :=
  Noticed (before ++ [.position .stopped s.pos.dir]) s t
    ∧ t.apart = { s with
        pos := { s.pos with b := 0, state := .stopped, period := none, mark := false, count := 0, mismatch := mismatch },
        raised := s.raised ++ stateEvents .stopped s.pos.dir }.apart

/-- The frame edge of a freewheel advance (R73, R74). -/
def Pos.advanceEdge (p : Pos) : FrameEdge :=
  { n := nextFrame p.rate p.n p.dir, dir := p.dir, speed := p.speed, inSpeed := p.inSpeed, jump := false, resume := false,
    state := .freewheel }

/-- A frame found missing in LOCKED after such an event: the position stopped, or made its first freewheel advance. -/
def Missed (before : List Notice) (mismatch : Bool) (s t : State) : Prop :=
  if s.pos.limit = 0 then Stopped before mismatch s t
  else Noticed (before ++ [.position .freewheel s.pos.dir]) s t
    ∧ t.apart = { s with
        pos := { s.pos with
          n := nextFrame s.pos.rate s.pos.n s.pos.dir, b := if s.pos.dir = Dir.forward then 0 else 79, state := .freewheel,
          count := 1, mismatch := mismatch },
        raised := s.raised ++ stateEvents .freewheel s.pos.dir
          ++ edgeEvents s.pos.advanceEdge (if s.pos.dir = Dir.forward then 0 else 79) }.apart

/-- IN_SPEED is the same in LOCKED and in FREEWHEEL (R69). -/
theorem Pos.inSpeed_running {p q : Pos} (hp : isRunning p.state = true) (hq : isRunning q.state = true)
    (hspeed : q.speed = p.speed) (hmark : q.mark = p.mark) : q.inSpeed = p.inSpeed := by
  simp only [Pos.inSpeed, hp, hq, hspeed, hmark]

/-- The edge of a position that runs on with the period held (R73 to R75). -/
theorem Pos.edge_held {p q : Pos} (hp : isRunning p.state = true) (hq : isRunning q.state = true) (hspeed : q.speed = p.speed)
    (hmark : q.mark = p.mark) (jump resume : Bool) : q.edge jump resume =
      { n := q.n, dir := q.dir, speed := p.speed, inSpeed := p.inSpeed, jump := jump, resume := resume, state := q.state } := by
  rw [Pos.edge, hspeed, Pos.inSpeed_running hp hq hspeed hmark]

/-- The edge of a freewheel advance (R73, R74). -/
theorem Pos.edge_advance {p q : Pos} (hp : isRunning p.state = true) (hn : q.n = nextFrame p.rate p.n p.dir)
    (hdir : q.dir = p.dir) (hq : q.state = .freewheel) (hspeed : q.speed = p.speed) (hmark : q.mark = p.mark) :
    q.edge false false = p.advanceEdge := by
  rw [Pos.edge_held hp (by rw [hq]; rfl) hspeed hmark, hn, hdir, hq, Pos.advanceEdge]

/-- An expiry of the watch timer in LOCKED (R73). -/
theorem execWatchTimerExpiry_locked {s : State} (h : s.pos.state = .locked) : exec .watchTimerExpiry s = .next s.missing := by
  simp only [exec, execWatchTimerExpiry, h]

/-- An expiry of the freewheel timer in FREEWHEEL (R74). -/
theorem execFreewheelTimerExpiry_freewheel {s : State} (h : s.pos.state = .freewheel) : exec .freewheelTimerExpiry s =
    .next (if s.pos.count < s.pos.limit then
      s.edgePos { s.pos.atFrame (nextFrame s.pos.rate s.pos.n s.pos.dir) s.pos.dir with count := s.pos.count + 1 } false false
    else s.enterPos s.pos.stop) := by
  simp only [exec, execFreewheelTimerExpiry, h]

section
variable {s u : State} {before : List Notice} {mismatch : Bool} (hnoticed : Noticed before s u)
  (hapart : u.apart = { s with pos := { s.pos with mismatch := mismatch } }.apart) (room : u.lnk.roomFor 1)
include hnoticed hapart room

theorem State.stop_stopped : Stopped before mismatch s (u.enterPos u.pos.stop) := by
  have hpos : u.pos = { s.pos with mismatch := mismatch } := (State.fields_of_apart hapart).2.1
  rw [hpos]
  exact ⟨hnoticed.trans (State.enterPos_noticed _ room), State.enterPos_after hapart⟩

theorem State.missing_missed (hlocked : s.pos.state = .locked) : Missed before mismatch s u.missing := by
  have hpos : u.pos = { s.pos with mismatch := mismatch } := (State.fields_of_apart hapart).2.1
  unfold Missed State.missing
  rw [← firstCell_eq, show u.pos.limit = s.pos.limit by rw [hpos]]
  split
  · exact State.stop_stopped hnoticed hapart room
  · rw [hpos]
    refine ⟨hnoticed.trans (State.enterEdge_noticed _ _ _ room), State.enterEdge_after hapart ?_⟩
    exact Pos.edge_advance (by rw [hlocked]; rfl) rfl rfl rfl rfl rfl

end

end Sys2Proof.Machine

open Sys2Proof Sys2Proof.Machine in
/-- Settles O19: the watch timer and a bad frame make the same work of a missing frame (`State.missing_missed`). -/
theorem missingFramesFreewheelOrStop : Obligations.MissingFramesFreewheelOrStop := by
  intro s
  refine ⟨fun h => ?_, fun h => ?_, fun h => ?_, fun h room => ?_, fun f h hsync hg room => ?_, fun h room => ?_⟩
  · show Host.Outcome.next _ = _
    cases hs : s.pos.state with
    | locked => exact absurd hs h
    | unknown | freewheel | stopped => rfl
  · show Host.Outcome.next _ = _
    cases hs : s.pos.state with
    | freewheel => exact absurd hs h
    | unknown | locked | stopped => rfl
  · exact Pos.inSpeed_running rfl (by rw [h]; rfl) rfl rfl
  · exact ⟨_, execWatchTimerExpiry_locked h, State.missing_missed (before := []) (Noticed.refl s) rfl room h⟩
  · obtain ⟨hnoticed, hroom⟩ := State.testAgreement_noticed f room
    have hmissed := State.missing_missed hnoticed (s.testAgreement_apart f) hroom h
    have hstate : (s.testAgreement f).pos.state = .locked := by rw [State.testAgreement_pos]; exact h
    refine ⟨(s.testAgreement f).missing, ?_, ?_⟩
    · rw [execLtcFrame_sync hsync, State.takeFrame_missing (by rwa [State.testAgreement_rate]) hstate]
    · split
      · next hd =>
        rwa [State.mismatchNotices_agrees hd, hd, bne_self_eq_false] at hmissed
      · next hd =>
        rwa [State.mismatchNotices_disagrees hd, bne_iff_ne.mpr hd] at hmissed
  · refine ⟨_, execFreewheelTimerExpiry_freewheel h, ?_⟩
    split
    · refine ⟨State.edgePos_noticed _ _ _ s, ?_⟩
      rw [← firstCell_eq]
      exact State.edgePos_after (q := s.pos) rfl (Pos.edge_advance (by rw [h]; rfl) rfl rfl h rfl rfl)
    · exact State.stop_stopped (before := []) (Noticed.refl s) rfl room

open Sys2Proof Sys2Proof.Machine in
/-- Settles O20: the frame the position is at enters LOCKED and raises no edge; any other frame enters LOCKED and raises its
edge. -/
theorem goodFrameEndsFreewheel : Obligations.GoodFrameEndsFreewheel := by
  intro f s hsync hg hs room
  have hcleared : Noticed [] s { s with pos := { s.pos with mismatch := false } } := Noticed.of_lnk rfl rfl rfl
  have hexec := (execLtcFrame_good hsync hg).trans (congrArg _ (State.takeFrame_freewheel (s := { s with
    pos := { s.pos with mismatch := false } }) hg hs))
  refine ⟨_, hexec, ?_⟩
  rw [← firstCell_eq]
  dsimp only
  unfold State.endFreewheel
  split
  · exact ⟨hcleared.trans (State.enterPos_noticed _ room), State.enterPos_after (q := { s.pos with mismatch := false }) rfl⟩
  · refine ⟨hcleared.trans (State.enterEdge_noticed _ _ _ room),
      State.enterEdge_after (q := { s.pos with mismatch := false }) rfl ?_⟩
    rw [bne, beq_eq_decide, ← decide_not]
    refine Pos.edge_held (p := s.pos) (by rw [hs]; rfl) ?_ ?_ ?_ _ _ <;> rfl
end

section
/-! How a frame is read from its cells and judged (R62, R63, R187). -/

namespace Sys2Proof.Machine

/-! ## The cells of a frame (R187) -/

theorem cellAt_eq (f : LtcFrame) (k : Nat) :
    cellAt f k = if f.dir = .forward then f.cells.getLsbD k else f.cells.getLsbD (79 - k) := by
  unfold cellAt
  cases f.dir <;> rfl

/-- Cells form a number as bits do, the lowest-numbered cell least significant. -/
theorem cellNumber_eq_sum (f : LtcFrame) (k w : Nat) :
    cellNumber f k w = ((List.range w).map fun i => if cellAt f (k + i) then 2 ^ i else 0).sum := by
  induction w with
  | zero => rfl
  | succ w ih => rw [cellNumber, ih, List.range_succ, List.map_append, List.sum_append]; simp

theorem cellNumber_lt (f : LtcFrame) (k w : Nat) : cellNumber f k w < 2 ^ w := by
  induction w with
  | zero => exact Nat.one_pos
  | succ w ih =>
    rw [cellNumber, Nat.pow_succ]
    split <;> omega

theorem testBit_cellNumber (f : LtcFrame) (k w i : Nat) :
    (cellNumber f k w).testBit i = (decide (i < w) && cellAt f (k + i)) := by
  induction w with
  | zero => simp [cellNumber]
  | succ w ih =>
    have hlt := cellNumber_lt f k w
    rw [cellNumber, Nat.add_comm]
    obtain hi | rfl | hi := Nat.lt_trichotomy i w
    · rw [decide_eq_true (Nat.lt_succ_of_lt hi), ← decide_eq_true hi, ← ih]
      split
      · exact Nat.testBit_two_pow_add_gt hi _
      · rw [Nat.zero_add]
    · rw [decide_eq_true (Nat.lt_succ_self i), Bool.true_and]
      split
      · next hc => rw [Nat.testBit_two_pow_add_eq, Nat.testBit_lt_two_pow hlt, hc]; rfl
      · next hc => rw [Nat.zero_add, Nat.testBit_lt_two_pow hlt, Bool.of_not_eq_true hc]
    · have hpow : 2 ^ (w + 1) ≤ 2 ^ i := Nat.pow_le_pow_right Nat.zero_lt_two hi
      rw [decide_eq_false (by omega), Bool.false_and]
      refine Nat.testBit_lt_two_pow (Nat.lt_of_lt_of_le ?_ hpow)
      rw [Nat.add_comm]
      exact cellNumber_lt f k (w + 1)

/-- The sync word stands in cells 64 to 79 as 0, 0, twelve 1 cells, 0, 1 (Table 10-10). -/
theorem syncPresent_iff (f : LtcFrame) : syncPresent f = true ↔
    ∀ i : Fin 16, cellAt f (64 + i.val) = (decide (2 ≤ i.val ∧ i.val ≤ 13) || decide (i.val = 15)) := by
  have hword : ∀ i : Fin 16, (0xBFFC : Nat).testBit i.val = (decide (2 ≤ i.val ∧ i.val ≤ 13) || decide (i.val = 15)) := by decide
  have hbit (i : Fin 16) : (cellNumber f 64 16).testBit i.val = cellAt f (64 + i.val) := by simp [testBit_cellNumber]
  rw [syncPresent, beq_iff_eq]
  constructor
  · intro h i
    rw [← hword, ← hbit, h]
  · intro h
    refine Nat.eq_of_testBit_eq fun i => ?_
    by_cases hi : i < 16
    · exact (hbit ⟨i, hi⟩).trans ((h ⟨i, hi⟩).trans (hword ⟨i, hi⟩).symm)
    · have hpow : 2 ^ 16 ≤ 2 ^ i := Nat.pow_le_pow_right (by decide) (Nat.le_of_not_lt hi)
      rw [Nat.testBit_lt_two_pow (Nat.lt_of_lt_of_le (cellNumber_lt f 64 16) hpow),
        Nat.testBit_lt_two_pow (Nat.lt_of_lt_of_le (by decide) hpow)]

/-- Two digits of a label fit in its field. -/
theorem twoDigits_toNat (f : LtcFrame) (k j : Nat) {v w : Nat} (hv : v ≤ 3) (hw : w ≤ 4) :
    (BitVec.ofNat 8 (10 * cellNumber f k v + cellNumber f j w)).toNat = 10 * cellNumber f k v + cellNumber f j w := by
  have h1 := Nat.lt_of_lt_of_le (cellNumber_lt f k v) (Nat.pow_le_pow_right (Nat.zero_lt_two) hv)
  have h2 := Nat.lt_of_lt_of_le (cellNumber_lt f j w) (Nat.pow_le_pow_right (Nat.zero_lt_two) hw)
  rw [BitVec.toNat_ofNat]
  omega

/-- Whatever a position state does with a frame, the mismatch flag stays as the rate agreement left it, and what the link
holds stays in front (R62, R63). -/
theorem State.takeFrame_keeps (f : LtcFrame) (s : State) :
    (s.takeFrame f).pos.mismatch = s.pos.mismatch ∧ s.lnk.noticesHeld <+: (s.takeFrame f).lnk.noticesHeld := by
  have hheld (p : Pos) (u : State) : u.lnk.noticesHeld <+: (u.enterPos p).lnk.noticesHeld :=
    (State.raise_told _ (State.post _ { u with pos := p })).held
  unfold State.takeFrame State.lock State.continueLocked State.missing State.endFreewheel
  dsimp only
  split
  · exact ⟨rfl, hheld _ s⟩
  · exact ⟨rfl, hheld _ s⟩
  · exact ⟨rfl, List.prefix_rfl⟩
  · split
    · exact ⟨by rw [State.enterPos_pos]; rfl, hheld _ s⟩
    · exact ⟨rfl, hheld _ s⟩
  · split
    · exact ⟨by rw [State.enterPos_pos], hheld _ s⟩
    · exact ⟨rfl, hheld _ s⟩
  all_goals exact ⟨rfl, List.prefix_rfl⟩

end Sys2Proof.Machine

open Sys2Proof Sys2Proof.Machine in
/-- Settles O17: numbers of cells are sums of their bits, and a completed frame first makes its rate agreement
(`State.testAgreement_told`). -/
theorem framesAreJudged : Obligations.FramesAreJudged := by
  refine ⟨fun f => ?_, fun f s hsync room => ⟨goodFrame_iff _ f, _, execLtcFrame_sync hsync s, ?_, ⟨?_, ?_⟩, ?_⟩⟩
  · simp only [← cellAt_eq, ← cellNumber_eq_sum]
    exact ⟨rfl, twoDigits_toNat f _ _ (by decide) (by decide), twoDigits_toNat f _ _ (by decide) (by decide),
      twoDigits_toNat f _ _ (by decide) (by decide), twoDigits_toNat f _ _ (by decide) (by decide), rfl, syncPresent_iff f⟩
  · rw [(State.takeFrame_keeps f _).1, State.testAgreement_pos]
  · exact (State.testAgreement_noticed f room).1.1 ▸ (State.takeFrame_keeps f _).2
  · intro hg hs
    rw [State.takeFrame_bad (by rwa [State.testAgreement_rate]) (by rwa [State.testAgreement_pos])]
    exact (State.testAgreement_noticed f room).1
  · intro hg hs
    rw [State.takeFrame_bad (by rwa [State.testAgreement_rate]) (by rwa [State.testAgreement_pos]), State.testAgreement_pos]
    exact State.testAgreement_apart f s
end

section
/-! The ticks of the Position Reader (R78) and what its commands, STATUS and RESTART come to (R64, R80, R81, R176, R177). -/

open Sys2Proof Sys2Proof.Machine in
/-- Settles O14: the three commands are answered from the state; STATUS clears the overrun flag it has placed in its answer. -/
theorem statusAndPositionAnswer : Obligations.StatusAndPositionAnswer := by
  intro s
  refine ⟨⟨_, rfl, ?_, ctxSetOf_getLsbD _, ?_⟩, ⟨_, rfl, State.owner_apart _ _ s, State.owner_answers rfl (Noticed.refl s)⟩,
    _, rfl, State.owner_apart _ _ s, State.owner_answers (Prod.ext rfl ?_) (Noticed.refl s)⟩
  · exact State.owner_apart _ _ s
  · exact State.answers_answered (Noticed.refl { s with lnk := { s.lnk with overrun := false } })
  · unfold Pos.info
    cases s.pos.state <;> rfl

namespace Sys2Proof.Machine

/-! ## Ticks (R78) -/

/-- The next cell in the direction of travel, until the last of the frame (R78). -/
theorem nextCell_eq (b : Nat) (dir : Dir) : nextCell b dir =
    if (dir = .forward ∧ b < 79) ∨ (dir = .reverse ∧ 0 < b) then some (if dir = .forward then b + 1 else b - 1) else none := by
  cases dir with
  | forward => simp [nextCell]
  | reverse => rcases b with _ | b <;> simp [nextCell]

theorem isRunning_iff (state : PosState) : isRunning state = true ↔ state = .locked ∨ state = .freewheel := by
  cases state <;> simp [isRunning]

end Sys2Proof.Machine

open Sys2Proof Sys2Proof.Machine in
/-- Settles O21: a running position steps its cell in the direction of travel (`nextCell_eq`) and raises the tick. -/
theorem ticksMoveTheCell : Obligations.TicksMoveTheCell := by
  intro s
  refine ⟨_, rfl, ?_⟩
  rw [nextCell_eq]
  by_cases hs : isRunning s.pos.state = true
  · by_cases hb : (s.pos.dir = .forward ∧ s.pos.b < 79) ∨ (s.pos.dir = .reverse ∧ 0 < s.pos.b)
    · simp only [hs, hb, if_true, (isRunning_iff _).mp hs, and_self]
      rfl
    · simp only [hs, hb, if_true, if_false, and_false]
  · simp only [hs, mt (isRunning_iff _).mpr hs, false_and, if_false, Bool.false_eq_true]

namespace Sys2Proof.Machine

/-! ## SET_RATE and SET_FREEWHEEL (R64, R80) -/

theorem rateOf_of_gt {code : Byte} (h : 3 < code.toNat) : rateOf code = none := by
  have hne (n : Byte) (hn : n.toNat ≤ 3) : code ≠ n := by rintro rfl; omega
  rw [rateOf, if_neg (hne 0 (by decide)), if_neg (hne 1 (by decide)), if_neg (hne 2 (by decide)), if_neg (hne 3 (by decide))]

theorem rateOf_of_le {code : Byte} (h : code.toNat ≤ 3) : rateOf code =
    some (if code = 0 then .fps24 else if code = 1 then .fps25 else if code = 2 then .fps30 else .drop30) := by
  have hcode : code = 0 ∨ code = 1 ∨ code = 2 ∨ code = 3 := by bv_omega
  obtain rfl | rfl | rfl | rfl := hcode <;> rfl

theorem State.not_allEmpty_iff (s : State) : (!s.allEmpty) = true ↔ ∃ r : Fin 8, (s.reel r).state ≠ .empty := by
  have : s.allEmpty = true ↔ ∀ r : Fin 8, (s.reel r).state = .empty := by
    simp [State.allEmpty, allReels, Fin.forall_fin_succ]
  rw [Bool.not_eq_true', ← Bool.not_eq_true, this, not_forall]

end Sys2Proof.Machine

open Sys2Proof Sys2Proof.Machine in
/-- Settles O22: the two checks in order, then the position of UNKNOWN, entered where the state was another. -/
theorem setRateMakesUnknown : Obligations.SetRateMakesUnknown := by
  intro code s room
  refine ⟨_, rfl, ?_⟩
  split
  · next h => exact State.owner_refused (by dsimp only; rw [rateOf_of_gt h])
  · next h =>
    refine State.owner_check (by dsimp only; rw [rateOf_of_le (Nat.le_of_not_lt h)]) s.not_allEmpty_iff fun _ hwork => ?_
    dsimp only
    split
    · next hs =>
      rw [if_pos hs] at hwork
      rw [State.owner_eq hwork]
      exact ⟨State.answers_apart .., State.answers_answered (Noticed.of_lnk rfl rfl rfl)⟩
    · next hs =>
      rw [if_neg hs] at hwork
      rw [State.owner_eq hwork]
      exact ⟨(State.answers_apart ..).trans (State.enterPos_apart _ s), State.answers_answered (State.enterPos_noticed _ room)⟩

open Sys2Proof Sys2Proof.Machine in
/-- Settles O23: the limit is stored as given up to 30, and a limit at or below the count stops the position at the next expiry
(`Pos.stop`). -/
theorem setFreewheelStoresTheLimit : Obligations.SetFreewheelStoresTheLimit := by
  intro limit s
  have hlimit : min limit.toNat 30 = if limit.toNat ≤ 30 then limit.toNat else 30 := Nat.min_def
  refine ⟨⟨_, rfl, ?_, ?_, fun h hcount => ?_, fun h hzero => ?_⟩, ⟨_, rfl, rfl⟩, fun _ => ⟨_, rfl, rfl⟩,
    fun code => ⟨_, rfl, ?_⟩⟩
  · rw [← hlimit]
    exact State.owner_apart _ _ s
  · exact State.owner_answers rfl (Noticed.of_lnk rfl rfl rfl)
  · refine ⟨_, execFreewheelTimerExpiry_freewheel h, ?_⟩
    rw [if_neg (Nat.not_lt.mpr hcount), State.enterPos_pos]
    rfl
  · refine ⟨_, execWatchTimerExpiry_locked h, ?_⟩
    rw [State.missing, if_pos (by rw [State.owner_pos, hzero]; rfl), State.enterPos_pos]
    rfl
  · rw [State.owner_pos]
    split
    · rfl
    · dsimp only
      split
      · rfl
      · split
        · rfl
        · dsimp only
          rw [State.enterPos_pos]
          rfl
end

section
/-! The reports of the Punch Unit at the Pass Scheduler (R98, R99, R144, R154): when one is in turn, what a punch report makes
of one context, and what the guard report makes of all of them, one after the other. -/

namespace Sys2Proof.Machine

/-! ## A report in turn (R144) -/

theorem State.takeInTurn_pos {i : Instr} {s : State} (h : s.inTurn i = true) (f : State → State) :
    s.takeInTurn i f = f (s.taken i) := if_pos h

theorem State.takeInTurn_neg {i : Instr} {s : State} (h : s.inTurn i = false) (f : State → State) :
    s.takeInTurn i f = s := if_neg (by simp [h])

section
variable {i : Instr} {p : Instr → Bool}

/-- An event is in turn where the oldest event it waits for, if there is one, is an equal one; `p` names those it waits for. -/
theorem State.inTurn_of_oldest (hp : ∀ j, waitsFor i j = p j) {s : State}
    (h : (s.raised.find? p).all (fun j => decide (j = i)) = true) : s.inTurn i = true := by
  rw [← funext hp] at h
  exact h

theorem State.not_inTurn_of_oldest (hp : ∀ j, waitsFor i j = p j) {s : State}
    (h : (s.raised.find? p).any (fun j => decide (j ≠ i)) = true) : s.inTurn i = false := by
  rw [← funext hp] at h
  obtain ⟨j, hj, hne⟩ := Option.any_eq_true _ _ |>.mp h
  simpa [State.inTurn, hj] using hne

end

/-! ## A punch report (R98, R99) -/

/-- What stands in a context already may be put there. -/
theorem State.setCtx_ctx (k : Fin 4) (s : State) : s.setCtx k (s.ctx k) = s := by
  simp [State.setCtx, State.ctx]

/-- A punch report reaches its context where that still serves the loop reported, and otherwise nothing. -/
theorem State.applyReport_eq (r : PunchReport) (s : State) : s.applyReport r =
    s.setCtx r.ctx ((s.ctx r.ctx).map fun c => if c.loop = r.loop then c.report r else c) := by
  cases hc : s.ctx r.ctx with
  | none => simpa [State.applyReport, hc] using (hc ▸ s.setCtx_ctx r.ctx).symm
  | some c =>
    by_cases hl : c.loop = r.loop
    · simp [State.applyReport, hc, hl]
    · simpa [State.applyReport, hc, hl] using (hc ▸ s.setCtx_ctx r.ctx).symm

/-! ## The guard report for one context (R144, R154) -/

/-- A context that the guard report has reached: its lines are out. -/
def Ctx.guarded (c : Ctx) : Ctx := { c with held := 0, released := 0 }

/-- A cue whose serving context the guard report has reached: the take the context names is marked while it is OPEN. -/
def Cue.guarded (c : Ctx) (cue : Cue) : Cue :=
  { cue with takes := cue.takes.map fun x =>
      if c.take = some x.number ∧ x.result = .opened then { x with guardTripped := true } else x }

theorem Cue.guarded_of_no_take {c : Ctx} (h : c.take = none) (cue : Cue) : cue.guarded c = cue := by
  simp [Cue.guarded, h]

theorem Cue.guarded_of_take {c : Ctx} {number : Nat} (h : c.take = some number) :
    Cue.guarded c = Cue.modTake number Take.trip := by
  funext cue
  refine congrArg (fun l => { cue with takes := l }) (List.map_congr_left fun x _ => ?_)
  by_cases hn : x.number = number
  · simp [h, hn, Take.trip]
  · simp [h, hn, Ne.symm hn]

/-- A change that leaves every cue leaves the state. -/
theorem State.modCue_of_fixed (r : Fin 8) (slot : Nat) {f : Cue → Cue} (hf : ∀ c, f c = c) (s : State) :
    s.modCue r slot f = s := by
  have hreel : Reel.modCue slot f s.cst.reels[r] = s.cst.reels[r] := by
    unfold Reel.modCue
    simp only [hf, ite_self, List.map_id']
  unfold State.modCue State.modReel
  rw [hreel, show s.cst.reels.set r s.cst.reels[r] = s.cst.reels from Vector.set_getElem_self r.isLt]

theorem State.guardCtx_free {s : State} {k : Fin 4} (h : s.ctx k = none) : s.guardCtx k = s := by
  simp only [State.guardCtx, h]

theorem State.guardCtx_active {s : State} {k : Fin 4} {c : Ctx} (h : s.ctx k = some c) :
    s.guardCtx k = (s.setCtx k (some c.guarded)).modCue c.reel c.slot (Cue.guarded c) := by
  cases ht : c.take with
  | none =>
    rw [State.modCue_of_fixed _ _ (Cue.guarded_of_no_take ht)]
    simp only [State.guardCtx, h, ht, Ctx.guarded]
  | some number =>
    rw [Cue.guarded_of_take ht]
    simp only [State.guardCtx, h, ht, Ctx.guarded]

/-! ## The guard report for all contexts -/

/-- The guard report has reached the contexts `ks` and the cues they serve, and nothing else. -/
structure Guarded (ks : List (Fin 4)) (s t : State) : Prop where
  rest : t = { s with cst := { s.cst with reels := t.cst.reels }, psc := t.psc }
  pointer : t.psc.pointer = s.psc.pointer
  refind : t.psc.refind = s.psc.refind
  ctx : ∀ k, t.ctx k = if k ∈ ks then (s.ctx k).map Ctx.guarded else s.ctx k
  reels : ∀ r, { t.reel r with cues := [] } = { s.reel r with cues := [] }
  cues : ∀ r slot, (∀ k ∈ ks, ∀ c, s.ctx k = some c → ¬ (c.reel = r ∧ c.slot = slot)) → t.cue r slot = s.cue r slot
  cueAt : ∀ k ∈ ks, ∀ c, s.ctx k = some c → t.cue c.reel c.slot = (s.cue c.reel c.slot).map (Cue.guarded c)

theorem Guarded.nil (s : State) : Guarded [] s s where
  rest := rfl
  pointer := rfl
  refind := rfl
  ctx _ := rfl
  reels _ := rfl
  cues _ _ _ := rfl
  cueAt _ hk := nomatch hk

/-- A FREE context takes nothing from the report. -/
theorem Guarded.skip {ks : List (Fin 4)} {s t : State} (h : Guarded ks s t) {k : Fin 4} (hk : s.ctx k = none) :
    Guarded (ks ++ [k]) s t where
  rest := h.rest
  pointer := h.pointer
  refind := h.refind
  ctx j := by
    rw [h.ctx]
    by_cases hj : j = k
    · simp [hj, hk]
    · simp [hj]
  reels := h.reels
  cues r slot hall := h.cues r slot fun j hj => hall j (List.mem_append_left _ hj)
  cueAt j hj c hc := by
    rcases List.mem_append.mp hj with hj | hj
    · exact h.cueAt j hj c hc
    · obtain rfl := List.mem_singleton.mp hj
      exact nomatch hk.symm.trans hc

/-- One ACTIVE context more: no context before it serves the same cue, so that cue is as it was. -/
theorem Guarded.step {ks : List (Fin 4)} {s t : State} (h : Guarded ks s t) {k : Fin 4} {c : Ctx}
    (hk : s.ctx k = some c) (hother : ∀ j ∈ ks, ∀ d, s.ctx j = some d → d.slot ≠ c.slot) :
    Guarded (ks ++ [k]) s ((t.setCtx k (some c.guarded)).modCue c.reel c.slot (Cue.guarded c)) where
  rest := by rw [h.rest]; rfl
  pointer := h.pointer
  refind := h.refind
  ctx j := by
    show (t.setCtx k (some c.guarded)).ctx j = _
    rw [State.ctx_setCtx, h.ctx]
    by_cases hj : j = k
    · simp [hj, hk]
    · simp [hj]
  reels r := by
    rw [← h.reels, State.modCue, State.reel_modReel]
    split
    · next e => subst e; rfl
    · rfl
  cues r slot hall := by
    rw [State.cue_modCue, if_neg fun e => hall k (by simp) c hk ⟨e.1.symm, e.2.symm⟩]
    exact h.cues r slot fun j hj => hall j (List.mem_append_left _ hj)
  cueAt j hj d hd := by
    rw [State.cue_modCue]
    rcases List.mem_append.mp hj with hj | hj
    · rw [if_neg fun e => hother j hj d hd e.2]
      exact h.cueAt j hj d hd
    · obtain rfl := List.mem_singleton.mp hj
      obtain rfl := Option.some.inj (hk.symm.trans hd)
      rw [if_pos ⟨rfl, rfl⟩]
      exact congrArg _ (h.cues c.reel c.slot fun i hi d hd e => hother i hi d hd e.2)

/-- The guard report taken for several contexts, one after the other, where no two of them serve cues of the same slot. -/
theorem State.guardCtxs_guarded {s : State} (hs : ∀ j k c d, s.ctx j = some c → s.ctx k = some d → c.slot = d.slot → j = k)
    (ks : List (Fin 4)) (hn : ks.Nodup) : Guarded ks s (ks.foldl State.guardCtx s) := by
  induction ks using List.reverseRecOn with
  | nil => exact Guarded.nil s
  | append_singleton ks k ih =>
    have hnew : k ∉ ks := fun hk => List.disjoint_of_nodup_append hn hk (List.mem_singleton_self k)
    have hdone := ih hn.of_append_left
    have hctx : (ks.foldl State.guardCtx s).ctx k = s.ctx k := by rw [hdone.ctx, if_neg hnew]
    rw [List.foldl_append, List.foldl_cons, List.foldl_nil]
    cases hk : s.ctx k with
    | none =>
      rw [State.guardCtx_free (hctx.trans hk)]
      exact hdone.skip hk
    | some c =>
      rw [State.guardCtx_active (hctx.trans hk)]
      exact hdone.step hk fun j hj d hd e => hnew (hs j k d c hd hk e ▸ hj)

end Sys2Proof.Machine

open Sys2Proof Sys2Proof.Machine in
/-- Settles O44: a report goes by its turn; in turn, a punch report rewrites one context (`State.applyReport_eq`), and the guard
report reaches each context and its cue once, since lawful passes serve different cues (`State.guardCtxs_guarded`). -/
theorem reportsReachTheContexts : Obligations.ReportsReachTheContexts := by
  rintro r s ⟨-, hdistinct, -⟩
  refine ⟨fun h => ?punchWaits, fun h => ?guardWaits, fun h => ?punch, fun h => ?guard⟩
  case punchWaits =>
    exact congrArg Host.Outcome.next
      (State.takeInTurn_neg (State.not_inTurn_of_oldest (fun j => by cases j <;> rfl) h) (State.applyReport r))
  case guardWaits =>
    exact congrArg Host.Outcome.next
      (State.takeInTurn_neg (State.not_inTurn_of_oldest (fun j => by cases j <;> rfl) h) (allCtx.foldl State.guardCtx))
  case punch =>
    have hturn := State.inTurn_of_oldest (i := .punchReport r) (fun j => by cases j <;> rfl) h
    exact congrArg Host.Outcome.next ((State.takeInTurn_pos hturn _).trans (State.applyReport_eq r (s.taken (.punchReport r))))
  case guard =>
    have hturn := State.inTurn_of_oldest (i := .guardReport) (fun j => by cases j <;> rfl) h
    have hg := State.guardCtxs_guarded (s := s.taken .guardReport) hdistinct allCtx allCtx_nodup
    refine ⟨_, congrArg Host.Outcome.next (State.takeInTurn_pos hturn _), hg.rest, hg.pointer, hg.refind, fun k => ?_, hg.reels,
      fun x slot hall => hg.cues x slot fun k _ => hall k, fun k => hg.cueAt k (mem_allCtx k)⟩
    exact (hg.ctx k).trans (if_pos (mem_allCtx k))
end

section
/-! The Count-In Unit (R109 to R116): which beat is the current one at a tick, when a gate is open, and how the tone generator
follows the gates of changed beat states. -/

namespace Sys2Proof.Machine

/-! ## The highest beat that meets a condition (R111, R122) -/

/-- The first entry of a strictly falling list that meets a condition is the highest one. -/
theorem find?_of_falling {l : List Nat} (hl : l.Pairwise (· > ·)) (p : Nat → Bool) (j : Nat) :
    l.find? p = some j ↔ j ∈ l ∧ p j = true ∧ ∀ i ∈ l, j < i → p i = false := by
  induction l with
  | nil => simp
  | cons a l ih =>
    obtain ⟨ha, hl⟩ := List.pairwise_cons.mp hl
    cases hp : p a with
    | false =>
      have hne (h : p j = true) : j ≠ a := fun e => by simp [e, hp] at h
      rw [List.find?_cons_of_neg (by simp [hp]), ih hl]
      simp only [List.mem_cons, forall_eq_or_imp, hp, implies_true, true_and]
      exact ⟨fun ⟨hj, h⟩ => ⟨.inr hj, h⟩, fun ⟨hj, h⟩ => ⟨hj.resolve_left (hne h.1), h⟩⟩
    | true =>
      rw [List.find?_cons_of_pos hp, Option.some.injEq]
      constructor
      · rintro rfl
        refine ⟨List.mem_cons_self, hp, fun i hi hlt => ?_⟩
        rcases List.mem_cons.mp hi with rfl | hi
        · exact absurd hlt (Nat.lt_irrefl _)
        · exact absurd hlt (Nat.lt_asymm (ha i hi))
      · rintro ⟨hj, -, hmax⟩
        rcases List.mem_cons.mp hj with rfl | hj
        · rfl
        · exact absurd hp (by simp [hmax a List.mem_cons_self (ha j hj)])

/-- The highest of the beats 1 to `n` that meets a condition, for a cue of at most four beeps. -/
theorem highestBeat_iff {n : Nat} (hn : n ≤ 4) (q : Nat → Bool) (j : Nat) :
    ([4, 3, 2, 1].find? fun i => decide (i ≤ n) && q i) = some j ↔
      1 ≤ j ∧ j ≤ n ∧ q j = true ∧ ∀ i, j < i → i ≤ n → q i = false := by
  have hmem (i : Nat) : i ∈ [4, 3, 2, 1] ↔ 1 ≤ i ∧ i ≤ 4 := by
    simp only [List.mem_cons, List.not_mem_nil, or_false]; omega
  rw [find?_of_falling (by decide)]
  simp only [hmem, Bool.and_eq_true, decide_eq_true_eq, Bool.and_eq_false_imp]
  constructor
  · rintro ⟨⟨hj, -⟩, ⟨hjn, hq⟩, hmax⟩
    exact ⟨hj, hjn, hq, fun i hi hin => hmax i (by omega) hi hin⟩
  · rintro ⟨hj, hjn, hq, hmax⟩
    exact ⟨⟨hj, by omega⟩, ⟨hjn, hq⟩, fun i _ hi hin => hmax i hi hin⟩

/-! ## A beat state found against a tick (R109, R111) -/

theorem CountIn.currentBeat_eq_some {c : CountIn} (hc : c.beeps ≤ 4) (t j : Nat) : c.currentBeat t = some j ↔
    1 ≤ j ∧ j ≤ c.beeps ∧ c.beatFrame j * 80 ≤ (t : Int) ∧ t < c.inPt * 80
      ∧ ∀ i : Nat, j < i → i ≤ c.beeps → (t : Int) < c.beatFrame i * 80 := by
  unfold CountIn.currentBeat Config.ticksPerFrame
  split_ifs with hin
  · refine iff_of_false nofun ?_
    rintro ⟨-, -, -, h, -⟩
    omega
  · rw [highestBeat_iff hc]
    simp only [decide_eq_true_eq, decide_eq_false_iff_not, Int.not_le]
    exact ⟨fun ⟨hj, hjn, hq, hmax⟩ => ⟨hj, hjn, hq, Nat.lt_of_not_le hin, hmax⟩,
      fun ⟨hj, hjn, hq, _, hmax⟩ => ⟨hj, hjn, hq, hmax⟩⟩

theorem CountIn.gateOpen_iff {c : CountIn} {start t : Nat} {current : Option Nat} (h : ∀ j, current = some j → j ≤ 4) :
    c.gateOpen start t current = true ↔ ∃ j : Fin 5, current = some j.val ∧ 0 ≤ c.beatFrame j.val
      ∧ (start : Int) ≤ c.beatFrame j.val ∧ (t : Int) < c.beatFrame j.val * 80 + c.onTime := by
  cases current with
  | none => simp [CountIn.gateOpen]
  | some j =>
    simp only [CountIn.gateOpen, CountIn.delivered, Bool.and_eq_true, decide_eq_true_eq, and_assoc]
    constructor
    · exact fun hopen => ⟨⟨j, Nat.lt_succ_of_le (h j rfl)⟩, rfl, hopen⟩
    · rintro ⟨i, hi, hopen⟩
      rwa [Option.some.inj hi]

section
variable {b : Beat} (t : Nat)

theorem Beat.find_inUse {start : Nat} {c : CountIn} (hstart : b.start = some start) (hcue : b.cue = some c) :
    b.find t = { b with current := c.currentBeat t, gate := c.gateOpen start t (c.currentBeat t) } := by
  rw [Beat.find, hstart, hcue]

theorem Beat.find_of_start_none (h : b.start = none) : b.find t = b := by
  rw [Beat.find, h]

theorem Beat.find_of_cue_none (h : b.cue = none) : b.find t = b := by
  rw [Beat.find, h]
  cases b.start <;> rfl

/-- The find keeps the start frame and the count-in values. -/
theorem Beat.find_keeps : (b.find t).start = b.start ∧ (b.find t).cue = b.cue := by
  unfold Beat.find
  split <;> exact ⟨rfl, rfl⟩

theorem Beat.find_found {start : Nat} {c : CountIn} (hstart : b.start = some start) (hcue : b.cue = some c)
    (hc : c.beeps ≤ 4) : BeatFound start c t (b.find t) := by
  rw [Beat.find_inUse t hstart hcue]
  exact ⟨fun j => CountIn.currentBeat_eq_some hc t j,
    CountIn.gateOpen_iff fun j hj => ((CountIn.currentBeat_eq_some hc t j).mp hj).2.1.trans hc⟩

end

/-! ## An entry hand-over (R110) -/

theorem Beat.enter_start (start : Nat) (cue : Option CountIn) (last : Option (Nat × Dir)) :
    (Beat.enter start cue last).start = some start := by
  cases last with
  | none => rfl
  | some p => exact (Beat.find_keeps p.1).1

theorem Beat.enter_cue (start : Nat) (cue : Option CountIn) (last : Option (Nat × Dir)) :
    (Beat.enter start cue last).cue = cue := by
  cases last with
  | none => rfl
  | some p => exact (Beat.find_keeps p.1).2

/-- Without count-in values no beat is found. -/
theorem Beat.enter_none (start : Nat) (last : Option (Nat × Dir)) :
    Beat.enter start none last = { start := some start, cue := none, current := none, gate := false } := by
  cases last with
  | none => rfl
  | some p => exact Beat.find_of_cue_none p.1 (b := ⟨some start, none, none, false⟩) rfl

theorem Beat.enter_found (start : Nat) {c : CountIn} (hc : c.beeps ≤ 4) (t : Nat) (dir : Dir) :
    BeatFound start c t (Beat.enter start (some c) (some (t, dir))) :=
  Beat.find_found t rfl rfl hc

theorem State.countInOf_free {s : State} {k : Fin 4} (h : s.ctx k = none) : s.countInOf k = none := by
  rw [State.countInOf, h]; rfl

theorem State.countInOf_active {s : State} {k : Fin 4} {c : Ctx} {cue : Cue} (h : s.ctx k = some c)
    (hcue : s.cue c.reel c.slot = some cue) : s.countInOf k = some cue.vals.countIn := by
  rw [State.countInOf, h, Option.bind_some, hcue]; rfl

/-! ## The tone generator (R115, R116) -/

section
variable {v : Vector Beat 4} {g : ToneGen}

theorem ToneGen.sound_same (h : lowestOpen v = g.sounding) : g.sound v = g := by
  unfold ToneGen.sound
  rw [h]
  cases g.sounding with
  | none => rfl
  | some j => exact if_pos rfl

theorem ToneGen.sound_none (h : lowestOpen v = none) (hg : g.sounding ≠ none) :
    g.sound v = { g with level := false, sounding := none, count := none } := by
  obtain ⟨j, hj⟩ := Option.ne_none_iff_exists'.mp hg
  rw [ToneGen.sound, h, hj]

theorem ToneGen.sound_new {k : Fin 4} (h : lowestOpen v = some k) (hg : g.sounding ≠ some k) :
    g.sound v = { level := if g.sounding.isSome then g.level else true, sounding := some k, divider := v[k].divider,
                  count := some 0 } := by
  unfold ToneGen.sound
  rw [h]
  cases hs : g.sounding with
  | none => rfl
  | some j => exact if_neg fun e => hg (hs.trans (congrArg some e))

end

/-- Whatever beat states an event leaves, the generator follows their gates. -/
theorem Ciu.withBeats_toneFollows (v : Vector Beat 4) {c d : Ciu} (h : d.tone = c.tone) : ToneFollows c (d.withBeats v) := by
  have hd : (d.withBeats v).tone = c.tone.sound v := congrArg (ToneGen.sound v) h
  have hs := ToneGen.sound_sounding v c.tone
  unfold ToneFollows
  rw [hd]
  refine ⟨fun k => ?_, fun hsame => ToneGen.sound_same (hs.symm.trans hsame), fun hnone hold => ?_, fun k hk hold => ?_⟩
  · rw [hs]
    exact lowestOpen_eq_some v k
  · have heq := ToneGen.sound_none (hs.symm.trans hnone) hold
    exact ⟨congrArg ToneGen.level heq, congrArg ToneGen.count heq, (congrArg ToneGen.divider heq).trans rfl⟩
  · have heq := ToneGen.sound_new (hs.symm.trans hk) hold
    exact ⟨congrArg ToneGen.count heq, congrArg ToneGen.divider heq, congrArg ToneGen.level heq⟩

/-! ## Ticks and hand-overs -/

theorem Ciu.tick_forward (t : Nat) (c : Ciu) (k : Fin 4) : (c.tick t .forward).beats[k] = c.beats[k].find t :=
  mapBeats_getElem _ c.beats k.val k.isLt

theorem Ciu.tick_reverse (t : Nat) (c : Ciu) (k : Fin 4) : (c.tick t .reverse).beats[k] = c.beats[k].shut :=
  mapBeats_getElem _ c.beats k.val k.isLt

/-- A hand-over sets the beat state of its context, and no other. -/
theorem Ciu.withBeats_set (c : Ciu) (k : Fin 4) (b : Beat) :
    (c.withBeats (c.beats.set k b)).beats[k] = b
      ∧ ∀ j : Fin 4, j ≠ k → (c.withBeats (c.beats.set k b)).beats[j] = c.beats[j] :=
  ⟨Vector.getElem_set_self k.isLt, fun j hj => Vector.getElem_set_ne k.isLt j.isLt fun e => hj (Fin.ext e.symm)⟩

theorem ToneGen.halfWave_eq (g : ToneGen) :
    g.halfWave = if g.sounding.isSome then { g with level := !g.level, count := some 0 } else g := by
  unfold ToneGen.halfWave
  cases g.sounding <;> rfl

end Sys2Proof.Machine

open Sys2Proof Sys2Proof.Machine in
/-- Settles O45: a forward tick finds each beat state (`Beat.find_found`), a reverse tick shuts it, and the generator follows
the gates left (`Ciu.withBeats_toneFollows`). -/
theorem ticksFindTheBeepGates : Obligations.TicksFindTheBeepGates := by
  intro tick dir s hbeeps
  refine ⟨_, rfl, rfl, rfl, Ciu.withBeats_toneFollows _ rfl, fun k => ?_⟩
  cases dir with
  | forward =>
    have hbeat := Ciu.tick_forward tick s.ciu k
    obtain ⟨hstart, hcue⟩ := Beat.find_keeps (b := s.ciu.beats[k]) tick
    refine ⟨(congrArg Beat.start hbeat).trans hstart, (congrArg Beat.cue hbeat).trans hcue, nofun,
      fun _ hnone => hbeat.trans (Beat.find_of_start_none tick hnone), fun _ start c hstart hcue => ?_⟩
    exact (congrArg (BeatFound start c tick) hbeat).mpr (Beat.find_found tick hstart hcue (hbeeps k c hcue))
  | reverse =>
    have hbeat := Ciu.tick_reverse tick s.ciu k
    exact ⟨(congrArg Beat.start hbeat).trans rfl, (congrArg Beat.cue hbeat).trans rfl,
      fun _ => ⟨congrArg Beat.current hbeat, congrArg Beat.gate hbeat⟩, nofun, nofun⟩

open Sys2Proof Sys2Proof.Machine in
/-- Settles O46: a hand-over sets one beat state (`Ciu.withBeats_set`), an entry as `Beat.enter` gives it, and the generator
follows the gates left. -/
theorem handoversSetTheBeatStates : Obligations.HandoversSetTheBeatStates := by
  intro k start s
  refine ⟨?entry, ?free, ?halfWave, rfl⟩
  case entry =>
    obtain ⟨hset, hother⟩ := s.ciu.withBeats_set k (Beat.enter start (s.countInOf k) s.ciu.last)
    refine ⟨_, rfl, rfl, rfl, Ciu.withBeats_toneFollows _ rfl, hother,
      (congrArg Beat.start hset).trans (Beat.enter_start _ _ _), fun hlast => ?_, fun hfree => ?_, fun c cue hc hcue => ?_⟩
    · have hbeat := hset.trans (congrArg (Beat.enter start _) hlast)
      exact ⟨congrArg Beat.current hbeat, congrArg Beat.gate hbeat⟩
    · have hbeat := hset.trans (congrArg₂ (Beat.enter start) (State.countInOf_free hfree) rfl)
      exact hbeat.trans (Beat.enter_none start s.ciu.last)
    · have hvals := State.countInOf_active hc hcue
      refine ⟨(congrArg Beat.cue hset).trans ((Beat.enter_cue _ _ _).trans hvals), fun hbeeps tick dir hlast => ?_⟩
      have hbeat := hset.trans (congrArg₂ (Beat.enter start) hvals hlast)
      exact (congrArg (BeatFound start _ tick) hbeat).mpr (Beat.enter_found start hbeeps tick dir)
  case free =>
    obtain ⟨hset, hother⟩ := s.ciu.withBeats_set k Beat.reset
    exact ⟨_, rfl, rfl, rfl, Ciu.withBeats_toneFollows _ rfl, hother, hset⟩
  case halfWave =>
    show Host.Outcome.next { s with ciu := { s.ciu with tone := s.ciu.tone.halfWave } } = _
    rw [ToneGen.halfWave_eq]
    split <;> rfl
end

section
/-! The Overlay Composer (R119 to R126, R180, R185, R186): the bytes of a descriptor, the lane of a context, and the port. -/

namespace Sys2Proof.Machine

/-! ## The bytes of a lane (R186) -/

theorem laneHead_toNat (k : Fin 4) (p : Phase) (flash bar : Bool) :
    (BitVec.ofNat 8 k.val ||| (phaseCode p <<< 2) ||| (flagByte flash <<< 4) ||| (flagByte bar <<< 5)).toNat
      = k.val + 4 * (phaseCode p).toNat + (if flash then 16 else 0) + (if bar then 32 else 0) := by
  cases p <;> revert k flash bar <;> decide

theorem laneColour_toNat {colour digit : Nat} (hc : colour < 8) (hd : digit < 8) :
    (BitVec.ofNat 8 (colour % 8) ||| (BitVec.ofNat 8 (digit % 8) <<< 4)).toNat = colour + 16 * digit := by
  have all : ∀ c d : Fin 8,
      (BitVec.ofNat 8 (c.val % 8) ||| (BitVec.ofNat 8 (d.val % 8) <<< 4)).toNat = c.val + 16 * d.val := by decide
  exact all ⟨colour, hc⟩ ⟨digit, hd⟩

/-- The last two bytes of a lane: its column, or FFFFH. -/
theorem laneColumn_bytes (column : Option Nat) : column.elim [0xFF, 0xFF] (natBytes 2)
    = [BitVec.ofNat 8 (column.getD 65535 / 256), BitVec.ofNat 8 (column.getD 65535)] := by
  cases column <;> rfl

theorem Lane.bytes_length (l : Lane) : l.bytes.length = 5 := by
  rw [Lane.bytes, laneColumn_bytes]; rfl

/-- What holds of a value that is absent, and of each that a test lets through, holds of a value tested. -/
theorem getD_of_all {P : Nat → Prop} {o : Option Nat} {p : Nat → Bool} (h : o.all p = true) {d : Nat} (hd : P d)
    (hp : ∀ x, p x = true → P x) : P (o.getD d) := by
  cases o with
  | none => exact hd
  | some x => exact hp x h

/-- The five bytes of a lane whose values are in range, as numbers. -/
theorem Lane.bytes_toNat {l : Lane} (hcolour : l.colour ≤ 7) (hdigit : l.digit.getD 0 < 8)
    (hcolumn : l.column.getD 65535 < 65536) :
    (l.bytes.getD 0 0).toNat
        = l.ctx.val + 4 * (phaseCode l.phase).toNat + (if l.flash then 16 else 0) + (if l.bar then 32 else 0)
      ∧ (l.bytes.getD 1 0).toNat = l.char.toNat ∧ (l.bytes.getD 2 0).toNat = l.colour + 16 * l.digit.getD 0
      ∧ 256 * (l.bytes.getD 3 0).toNat + (l.bytes.getD 4 0).toNat = l.column.getD 65535 := by
  rw [Lane.bytes, laneColumn_bytes]
  refine ⟨laneHead_toNat _ _ _ _, rfl, laneColour_toNat (Nat.lt_succ_of_le hcolour) hdigit, ?_⟩
  show 256 * (BitVec.ofNat 8 _).toNat + (BitVec.ofNat 8 _).toNat = _
  rw [BitVec.toNat_ofNat, BitVec.toNat_ofNat]
  omega

/-! ## The bytes of a descriptor (R185) -/

section
variable {α β : Type} {f : α → List β} {w : Nat}

theorem length_flatMap_of_length (hf : ∀ x, (f x).length = w) (l : List α) : (l.flatMap f).length = w * l.length := by
  simp [hf, Nat.mul_comm]

/-- Where every entry of a list gives `w` bytes, byte `r` of entry `i` is byte `w * i + r` of them all. -/
theorem getD_flatMap_of_length (hf : ∀ x, (f x).length = w) (d : β) (rest : List β) {r : Nat} (hr : r < w)
    {l : List α} {i : Nat} {x : α} (h : l[i]? = some x) : (l.flatMap f ++ rest).getD (w * i + r) d = (f x).getD r d := by
  induction l generalizing i with
  | nil => cases h
  | cons y l ih =>
    rw [List.flatMap_cons, List.append_assoc]
    cases i with
    | zero =>
      obtain rfl : y = x := Option.some.inj h
      rw [Nat.mul_zero, Nat.zero_add, List.getD_append _ _ _ _ (by rw [hf]; exact hr)]
    | succ i =>
      rw [List.getD_append_right _ _ _ _ (by rw [hf, Nat.mul_succ]; omega), hf, ← ih h]
      congr 1
      rw [Nat.mul_succ]; omega

end

theorem byteSum_eq_sum (bs : List Byte) : byteSum bs = bs.sum := List.sum_eq_foldl.symm

/-- The check byte makes the sum 0 (R185). -/
theorem byteSum_checked (bs : List Byte) : byteSum (bs ++ [-(byteSum bs)]) = 0 := by
  simp only [byteSum_eq_sum, List.sum_append, List.sum_singleton]
  exact BitVec.add_right_neg _

/-- The bytes of a descriptor after the start byte, without the check byte. -/
def Descriptor.inner (d : Descriptor) : List Byte :=
  natBytes 3 d.frame ++ [posCode d.state, BitVec.ofNat 8 d.lanes.length] ++ d.lanes.flatMap Lane.bytes

theorem Descriptor.bytes_eq (d : Descriptor) : d.bytes = 0xA7 :: (d.inner ++ [-(byteSum d.inner)]) := rfl

theorem Descriptor.bytes_length (d : Descriptor) : d.bytes.length = 7 + 5 * d.lanes.length := by
  rw [Descriptor.bytes_eq, List.length_cons, List.length_append, Descriptor.inner, List.length_append,
    length_flatMap_of_length Lane.bytes_length]
  show 5 + 5 * d.lanes.length + 1 + 1 = _
  omega

/-- The six bytes before the lanes. -/
theorem Descriptor.bytes_head (d : Descriptor) : d.bytes = [0xA7, BitVec.ofNat 8 (d.frame / 256 / 256),
    BitVec.ofNat 8 (d.frame / 256), BitVec.ofNat 8 d.frame, posCode d.state, BitVec.ofNat 8 d.lanes.length]
      ++ (d.lanes.flatMap Lane.bytes ++ [-(byteSum d.inner)]) := rfl

/-- Byte `r` of lane `i` stands `5 * i + r` bytes after the six before the lanes. -/
theorem Descriptor.bytes_lane (d : Descriptor) {i : Nat} {l : Lane} (h : d.lanes[i]? = some l) {r : Nat} (hr : r < 5) :
    d.bytes.getD (6 + r + 5 * i) 0 = l.bytes.getD r 0 := by
  rw [Descriptor.bytes_head, List.getD_append_right _ _ _ _ (by simp only [List.length_cons, List.length_nil]; omega),
    ← getD_flatMap_of_length Lane.bytes_length 0 [-(byteSum d.inner)] hr h]
  congr 1
  simp only [List.length_cons, List.length_nil]
  omega

/-- The bytes of a descriptor as numbers. -/
theorem Descriptor.bytes_toNat {d : Descriptor} (hframe : d.frame < 16777216) (hlanes : d.lanes.length < 256) :
    65536 * (d.bytes.getD 1 0).toNat + 256 * (d.bytes.getD 2 0).toNat + (d.bytes.getD 3 0).toNat = d.frame
      ∧ d.bytes.getD 4 0 = posCode d.state ∧ (d.bytes.getD 5 0).toNat = d.lanes.length := by
  rw [Descriptor.bytes_head]
  refine ⟨?_, rfl, ?_⟩
  · show 65536 * (BitVec.ofNat 8 _).toNat + 256 * (BitVec.ofNat 8 _).toNat + (BitVec.ofNat 8 _).toNat = _
    simp only [BitVec.toNat_ofNat]
    omega
  · show (BitVec.ofNat 8 _).toNat = _
    rw [BitVec.toNat_ofNat]
    exact Nat.mod_eq_of_lt hlanes

/-! ## The lane of a context (R120 to R122, R124) -/

section
variable (v : CueVals) (phase : Phase) (n : Nat)

theorem streamerColumn_eq : streamerColumn v phase n =
    if phase = .lead ∧ 0 < v.streamer ∧ (v.inPt : Int) - v.streamer ≤ n ∧ n < v.inPt then
      some ((960 * ((n : Int) - ((v.inPt : Int) - v.streamer))) / v.streamer).toNat
    else none := by
  have hfirst : (v.inPt : Int) - v.streamer ≤ n ↔ v.inPt ≤ n + v.streamer := by omega
  unfold streamerColumn
  simp only [hfirst]
  split_ifs with h
  · obtain ⟨-, -, hle, -⟩ := h
    have hsub : (n : Int) - ((v.inPt : Int) - v.streamer) = ((n + v.streamer - v.inPt : Nat) : Int) := by omega
    rw [hsub]
    rfl
  · rfl

/-- A column is one of 0 to 959 (R121). -/
theorem streamerColumn_le : (streamerColumn v phase n).all (fun x => decide (x ≤ 959)) = true := by
  unfold streamerColumn
  split_ifs with h
  · obtain ⟨-, hpos, hle, hlt⟩ := h
    have : 960 * (n + v.streamer - v.inPt) / v.streamer < 960 := by
      rw [Nat.div_lt_iff_lt_mul hpos]
      omega
    exact decide_eq_true (Nat.le_of_lt_succ this)
  · rfl

/-- The beat after beat `i` is not before it. -/
theorem CountIn.beatFrame_mono (c : CountIn) {i j : Nat} (h : i ≤ j) : c.beatFrame i ≤ c.beatFrame j := by
  unfold CountIn.beatFrame
  have : ((c.beeps + 1 : Nat) - (j : Int)) * (c.spacing : Int) ≤ ((c.beeps + 1 : Nat) - (i : Int)) * (c.spacing : Int) :=
    Int.mul_le_mul_of_nonneg_right (by omega) (by omega)
  omega

/-- The beat after the last falls on the in-point (R109). -/
theorem CountIn.beatFrame_last (c : CountIn) : c.beatFrame (c.beeps + 1) = c.inPt := by
  simp [CountIn.beatFrame]

/-- Beat `j` is the highest not after frame `n`, and `n` is before the in-point: `n` lies between beat `j` and the one after
it, the in-point after the last. -/
theorem CountIn.inInterval_iff (c : CountIn) {j : Nat} (hj : j ≤ c.beeps) :
    (n < c.inPt ∧ ∀ i, j < i → i ≤ c.beeps → (n : Int) < c.beatFrame i) ↔
      (n : Int) < if j = c.beeps then (c.inPt : Int) else c.beatFrame (j + 1) := by
  split_ifs with hlast
  · constructor
    · rintro ⟨h, -⟩
      omega
    · exact fun h => ⟨by omega, fun i _ _ => by omega⟩
  · constructor
    · rintro ⟨-, h⟩
      exact h (j + 1) (by omega) (by omega)
    · intro h
      have hin := c.beatFrame_mono (show j + 1 ≤ c.beeps + 1 by omega)
      rw [c.beatFrame_last] at hin
      exact ⟨by omega, fun i hi _ => Int.lt_of_lt_of_le h (c.beatFrame_mono hi)⟩

theorem countDigit_eq_some {v : CueVals} (hv : v.beeps ≤ 4) (digit : Nat) : countDigit v phase n = some digit ↔
    phase = .lead ∧ ∃ j : Fin 5, 1 ≤ j.val ∧ j.val ≤ v.beeps ∧ digit = v.beeps - j.val + 1
      ∧ v.countIn.beatFrame j.val ≤ n
      ∧ n < if j.val = v.beeps then (v.inPt : Int) else v.countIn.beatFrame (j.val + 1) := by
  have hbeat (j : Nat) := highestBeat_iff hv (fun j => decide (v.countIn.beatFrame j ≤ (n : Int))) j
  simp only [decide_eq_true_eq, decide_eq_false_iff_not, Int.not_le] at hbeat
  unfold countDigit
  split_ifs with h
  · obtain ⟨hlead, hn⟩ := h
    simp only [Option.map_eq_some_iff, hbeat]
    constructor
    · rintro ⟨j, ⟨hj, hjn, hle, hmax⟩, rfl⟩
      exact ⟨hlead, ⟨j, by omega⟩, hj, hjn, rfl, hle, (v.countIn.inInterval_iff n hjn).mp ⟨hn, hmax⟩⟩
    · rintro ⟨-, j, hj, hjn, rfl, hle, hlt⟩
      exact ⟨j.val, ⟨hj, hjn, hle, ((v.countIn.inInterval_iff n hjn).mpr hlt).2⟩, rfl⟩
  · refine iff_of_false nofun ?_
    rintro ⟨hlead, j, -, hjn, -, -, hlt⟩
    exact h ⟨hlead, ((v.countIn.inInterval_iff n hjn).mpr hlt).1⟩

theorem flashOn_eq (flash : Nat) :
    flashOn v phase flash n = decide (phase = .line ∧ v.inPt ≤ n ∧ n < v.inPt + flash ∧ n < v.outPt) := by
  simp only [flashOn, Bool.decide_and, Bool.and_assoc]

end

/-! ## A lane report (R119, R120) -/

theorem State.laneFor_active {s : State} {k : Fin 4} {c : Ctx} {cue : Cue} (hc : s.ctx k = some c)
    (hcue : s.cue c.reel c.slot = some cue) (n : Nat) (phase : Phase) :
    s.laneFor n (k, phase) = some (laneOf k phase cue.vals s.ovl.flash n) := by
  rw [State.laneFor, hc, Option.bind_some, hcue]
  rfl

/-- Where a function answers on every entry of a list, the entries kept are its answers, one for each. -/
theorem map_some_filterMap {α β : Type} {f : α → Option β} {l : List α} (h : ∀ x ∈ l, (f x).isSome = true) :
    (l.filterMap f).map some = l.map f := by
  induction l with
  | nil => rfl
  | cons x l ih =>
    obtain ⟨y, hy⟩ := Option.isSome_iff_exists.mp (h x List.mem_cons_self)
    rw [List.filterMap_cons_some hy, List.map_cons, List.map_cons, hy, ih fun z hz => h z (List.mem_cons_of_mem x hz)]

/-- Where each reported context has a lane, the descriptor holds them in the order of the report. -/
theorem State.compose_lanes {s : State} {r : LaneReport} (h : ∀ x ∈ r.lanes, (s.laneFor r.n x).isSome = true) :
    (s.compose r).lanes.map some = r.lanes.map (s.laneFor r.n) :=
  map_some_filterMap h

theorem Ovl.hand_eq (d : Descriptor) (o : Ovl) :
    o.hand d = if o.wire = none then { o with wire := some d } else { o with waiting := some d } := by
  unfold Ovl.hand
  cases o.wire <;> rfl

theorem State.draw_quiet {s : State} (h : s.ovl.quiet = true) (r : LaneReport) : s.draw r = s := if_pos h

theorem State.draw_shown {s : State} (h : s.ovl.quiet = false) (r : LaneReport) :
    s.draw r = { s with ovl := s.ovl.hand (s.compose r) } := if_neg (by simp [h])

/-! ## SET_FLASH and SET_VOICE (R125, R162) -/

theorem byte_eq_zero_iff (b : Byte) : b = 0 ↔ b.toNat = 0 := BitVec.toNat_eq

theorem clampFlash_byte (b : Byte) : clampFlash b.toNat = if b = 0 then 1 else if 3 < b.toNat then 3 else b.toNat := by
  simp only [clampFlash, byte_eq_zero_iff]
  split_ifs <;> omega

theorem clampFlash_eq_self_iff (v : Nat) : clampFlash v = v ↔ 1 ≤ v ∧ v ≤ 3 := by
  unfold clampFlash
  split_ifs <;> omega

/-- A qualify length of 0 is stored as 1 (R162). -/
theorem max_byte_one (b : Byte) : max b.toNat 1 = if b = 0 then 1 else b.toNat := by
  simp only [byte_eq_zero_iff]
  split_ifs <;> omega

/-- An allowance above 48 is stored as 48 (R162). -/
theorem min_byte_allowance (b : Byte) : min b.toNat 48 = if 48 < b.toNat then 48 else b.toNat := by
  split_ifs <;> omega

end Sys2Proof.Machine

open Sys2Proof Sys2Proof.Machine in
/-- Settles O47: the bytes of a descriptor are read lane by lane (`Descriptor.bytes_lane`), and each reported context has one
lane (`State.compose_lanes`), that of `laneOf`. -/
theorem descriptorsShowThePasses : Obligations.DescriptorsShowThePasses := by
  refine ⟨fun d hframe hlanes hvals => ?bytes, fun r s => ⟨fun h => ?waits, fun h hactive => ?taken⟩⟩
  case bytes =>
    obtain ⟨hn, hstate, hcount⟩ := Descriptor.bytes_toNat hframe (by omega)
    refine ⟨d.bytes_length, rfl, byteSum_checked d.inner, hn, ?_, hcount, fun i l hl => ?_⟩
    · refine (congrArg BitVec.toNat hstate).trans ?_
      cases d.state <;> rfl
    · obtain ⟨hcolour, hdigit, hcolumn⟩ := hvals l (List.mem_of_getElem? hl)
      obtain ⟨h0, h1, h2, h34⟩ := Lane.bytes_toNat hcolour
        (getD_of_all (P := (· < 8)) hdigit (by decide) fun x hx => by have := of_decide_eq_true hx; omega)
        (getD_of_all (P := (· < 65536)) hcolumn (by decide) fun x hx => by have := of_decide_eq_true hx; omega)
      have hbyte (b : Nat) (hb : b < 5) := congrArg BitVec.toNat (d.bytes_lane hl hb)
      refine ⟨(hbyte 0 (by decide)).trans (h0.trans ?_), (hbyte 1 (by decide)).trans h1, (hbyte 2 (by decide)).trans h2,
        (congrArg₂ (256 * · + ·) (hbyte 3 (by decide)) (hbyte 4 (by decide))).trans h34⟩
      cases l.phase <;> rfl
  case waits =>
    exact congrArg Host.Outcome.next
      (State.takeInTurn_neg (State.not_inTurn_of_oldest (fun j => by cases j <;> rfl) h) (State.draw r))
  case taken =>
    have hturn := State.inTurn_of_oldest (i := .laneReport r) (fun j => by cases j <;> rfl) h
    have hlanes := State.compose_lanes (s := s.taken (.laneReport r)) (r := r) fun x hx => by
      obtain ⟨c, cue, hc, hcue, -⟩ := hactive x hx
      rw [State.laneFor_active (s := s.taken (.laneReport r)) hc hcue]
      rfl
    refine ⟨_, congrArg Host.Outcome.next (State.takeInTurn_pos hturn _),
      fun hq => State.draw_quiet (s := s.taken _) hq r,
      fun hq => ⟨(s.taken (.laneReport r)).compose r, ?_, rfl, rfl, ?_, fun i k phase c cue hi hc hcue => ?_⟩⟩
    · rw [State.draw_shown (s := s.taken _) hq, Ovl.hand_eq]
      rfl
    · simpa using congrArg List.length hlanes
    · have hl := congrArg (·[i]?) hlanes
      obtain ⟨c', cue', hc', hcue', hbeeps⟩ := hactive _ (List.mem_of_getElem? hi)
      obtain rfl := Option.some.inj (hc.symm.trans hc')
      obtain rfl := Option.some.inj (hcue.symm.trans hcue')
      refine ⟨laneOf k phase cue.vals s.ovl.flash r.n, ?_, rfl, rfl, rfl, rfl, rfl, streamerColumn_eq _ _ _,
        streamerColumn_le _ _ _, countDigit_eq_some _ _ hbeeps, flashOn_eq _ _ _ _⟩
      simpa [hi, State.laneFor_active (s := s.taken (.laneReport r)) hc hcue] using hl

open Sys2Proof Sys2Proof.Machine in
/-- Settles O48: a state event goes by its turn, and a descriptor is handed to the port as `Ovl.hand_eq` says. -/
theorem overlayPortSendsInOrder : Obligations.OverlayPortSendsInOrder := by
  intro state dir s
  refine ⟨fun h => ?waits, fun h => ?taken, fun h => ?next, fun h => ?idle⟩
  case waits =>
    exact congrArg Host.Outcome.next
      (State.takeInTurn_neg (State.not_inTurn_of_oldest (fun j => by cases state <;> cases j <;> rfl) h) _)
  case taken =>
    have hturn := State.inTurn_of_oldest (i := .ovlStateEvent state dir) (fun j => by cases state <;> cases j <;> rfl) h
    refine congrArg Host.Outcome.next ((State.takeInTurn_pos hturn _).trans ?_)
    cases state with
    | unknown | stopped => simp only [Ovl.stateEvent, Ovl.hand_eq]; rfl
    | locked | freewheel => rfl
  case next =>
    obtain ⟨d, hd⟩ := Option.ne_none_iff_exists'.mp h
    show Host.Outcome.next _ = _
    rw [hd]
  case idle =>
    show Host.Outcome.next _ = _
    rw [h]

open Sys2Proof Sys2Proof.Machine in
/-- Settles O49: each owner stores its values brought into range (`clampFlash_byte`, `max_byte_one`, `min_byte_allowance`), and
answers by whether they were. -/
theorem flashAndVoiceSettingsAreStored : Obligations.FlashAndVoiceSettingsAreStored := by
  intro length qualify allowance byLine s
  refine ⟨⟨_, rfl, ?flash, ?flashAnswer⟩, ⟨_, rfl, rfl⟩, ⟨_, rfl, rfl⟩, _, rfl, ?voice, ?voiceAnswer⟩
  case flash =>
    rw [← clampFlash_byte]
    exact State.owner_apart _ _ s
  case flashAnswer =>
    simp only [← clampFlash_eq_self_iff]
    exact State.owner_answers rfl (Noticed.of_lnk rfl rfl rfl)
  case voice =>
    rw [← max_byte_one, ← min_byte_allowance]
    exact State.owner_apart _ _ s
  case voiceAnswer =>
    have hclamped : (qualify = 0 ∨ 48 < allowance.toNat) ↔ ¬ (1 ≤ qualify.toNat ∧ allowance.toNat ≤ 48) := by
      rw [byte_eq_zero_iff]
      omega
    simp only [hclamped, ite_not]
    exact State.owner_answers rfl (Noticed.of_lnk rfl rfl rfl)
end

section
/-! The transfers of the Punch Unit (R136, R137, R140, R141): what the transfer of one entry, of a context or of manual
control, moves, hands on and raises. -/

namespace Sys2Proof.Machine

/-! ## What transfers do -/

/-- A notice raised behind a change of the state outside the link. -/
theorem Told.raise {s u : State} (n : Notice) (h : u.lnk = s.lnk) (h' : u.lastAnswer = s.lastAnswer)
    (h'' : u.ties = s.ties) : Told [n] s (u.raise n) := (Told.of_lnk h h' h'').trans (State.raise_told n u)

/-- Transfers turned `s` into `t`: they handed on the reports `rs` and raised the notices `ns`, and nothing
else changed but line records and entries. -/
structure Punched (rs : List Instr) (ns : List Notice) (s t : State) : Prop where
  apart : t.apart = { s with pch := t.pch, raised := s.raised ++ rs }.apart
  unit : t.pch = { s.pch with lines := t.pch.lines, staged := t.pch.staged }
  told : Told ns s t

theorem Punched.refl (s : State) : Punched [] [] s s where
  apart := by rw [List.append_nil]
  unit := rfl
  told := .refl s

theorem Punched.trans {rs rs' : List Instr} {ns ns' : List Notice} {s t u : State} (h : Punched rs ns s t)
    (h' : Punched rs' ns' t u) : Punched (rs ++ rs') (ns ++ ns') s u where
  apart := by
    obtain ⟨hpending, hpos, hcst, hcfu, hpsc, hciu, hovl, -, hvgt, hboard, hraised⟩ := State.fields_of_apart h.apart
    rw [h'.apart]
    simp [State.apart, *]
  unit := by
    rw [h'.unit, h.unit]
  told := h.told.trans h'.told

/-- The state once a staged manual entry has left the list. -/
def State.unstaged (s : State) : State := { s with pch := { s.pch with manual := none } }

/-- The transfers of context entries go on alike whether a manual entry waits behind them or not. -/
theorem Punched.unstaged {rs : List Instr} {ns : List Notice} {s t : State} (h : Punched rs ns s t) :
    Punched rs ns s.unstaged t.unstaged where
  apart := by
    obtain ⟨hpending, hpos, hcst, hcfu, hpsc, hciu, hovl, -, hvgt, hboard, hraised⟩ := State.fields_of_apart h.apart
    exact State.apart_ext hpending hpos hcst hcfu hpsc hciu hovl rfl hvgt hboard hraised
  unit := by
    show { t.pch with manual := none } = _
    rw [h.unit]; rfl
  told := ⟨h.told.noticed, h.told.overrun, h.told.length, h.told.held⟩

/-! ## The transfer of a context entry -/

/-- The lines that the transfer of a context entry moves (R136, R137). -/
def Pch.reach (p : Pch) (j : Fin 4) (x : Staged) : LineSet :=
  match x.action with
  | .punchIn => p.grantable x.lines
  | .punchOut => p.ownedBy j

/-- A line that a transfer for context `j` has moved. -/
def Line.punch (a : Action) (j : Fin 4) (l : Line) : Line :=
  match a with
  | .punchIn => l.give (.context j)
  | .punchOut => l.putOut

/-- The lines after the transfer of a context entry. -/
def Pch.punch (p : Pch) (j : Fin 4) (x : Staged) : Pch :=
  { p with lines := mapLines (fun k l => if inSet k (p.reach j x) then l.punch x.action j else l) p.lines }

/-- The punch report of a transfer that moved the lines `set`. -/
def punchReport (j : Fin 4) (x : Staged) (set : LineSet) : Instr :=
  .punchReport { ctx := j, loop := x.loop, action := x.action, lines := set }

/-- The PUNCH notice of a transfer that moved the lines `set`. -/
def punchNotice (j : Fin 4) (x : Staged) (set : LineSet) : Notice :=
  match x.action with
  | .punchIn => .punch (.context j) set 0 (x.lines &&& ~~~set)
  | .punchOut => .punch (.context j) 0 set 0

theorem State.transfer_eq (j : Fin 4) (x : Staged) (s : State) : s.transfer j x =
    (State.post [punchReport j x (s.pch.reach j x)] { s with pch := s.pch.punch j x }).raise
      (punchNotice j x (s.pch.reach j x)) := by
  unfold State.transfer punchReport punchNotice Pch.punch Pch.reach Line.punch
  cases x.action <;> rfl

theorem Pch.punch_line (p : Pch) (j : Fin 4) (x : Staged) (k : Fin 8) : (p.punch j x).lines[k] =
    if inSet k (p.reach j x) then p.lines[k].punch x.action j else p.lines[k] :=
  mapLines_get _ _ k

theorem Pch.inSet_reach (p : Pch) (j : Fin 4) (x : Staged) (k : Fin 8) : inSet k (p.reach j x) =
    match x.action with
    | .punchIn => inSet k x.lines && decide (p.lines[k].mode = .cue ∧ p.lines[k].owner = .nobody ∧ p.unit = .normal)
    | .punchOut => decide (p.lines[k].owner = .context j) := by
  unfold Pch.reach
  cases x.action with
  | punchIn => simp [Pch.grantable, Bool.and_assoc]
  | punchOut => simp

/-- A line that a transfer has moved is beyond the reach of the transfers of the same action that follow; every other
line is as it was (R135). -/
theorem Pch.inSet_reach_punch {p : Pch} {i j : Fin 4} {x y : Staged} (ha : y.action = x.action) (k : Fin 8) :
    inSet k ((p.punch j x).reach i y) = (inSet k (p.reach i y) && !inSet k (p.reach j x)) := by
  have hunit : (p.punch j x).unit = p.unit := rfl
  rw [Pch.inSet_reach, Pch.punch_line, hunit, ha]
  by_cases hk : inSet k (p.reach j x) = true
  · rw [hk, if_pos rfl]
    cases x.action <;> simp [Line.punch, Line.give, Line.putOut]
  · rw [if_neg hk, Pch.inSet_reach p i y, ha]
    simp [hk]

/-! ## A manual entry -/

theorem State.transferManual_told (m : ManualEntry) (s : State) : Told [manualNotice m s.pch] s (s.transferManual m) := by
  have hmoved : s.pch.manualLines m.lines (if m.action = .punchIn then .nobody else .manual) = setOf (ManualMoves m s.pch) :=
    LineSet.ext_inSet _ _ fun k => by rw [Pch.inSet_manualLines, inSet_setOf]
  have hrefused : s.pch.manualRefused m.lines = setOf fun k => inSet k m.lines && decide (s.pch.lines[k].mode = .cue) := rfl
  unfold manualNotice State.transferManual
  rw [← hmoved, ← hrefused]
  cases m.action with
  | punchIn => exact Told.raise _ rfl rfl rfl
  | punchOut => exact Told.raise _ rfl rfl rfl

/-- The transfer of a manual entry changes nothing but line records. -/
theorem State.transferManual_pch (m : ManualEntry) (s : State) :
    (s.transferManual m).pch = { s.pch with lines := (s.transferManual m).pch.lines } := by
  unfold State.transferManual
  cases m.action with
  | punchIn => dsimp only; rw [State.raise_pch]; rfl
  | punchOut => dsimp only; rw [State.raise_pch]; rfl

theorem State.transferManual_apart (m : ManualEntry) (s : State) :
    (s.transferManual m).apart = { s with pch := (s.transferManual m).pch }.apart := by
  unfold State.transferManual
  cases m.action with
  | punchIn => dsimp only; rw [State.raise_apart, State.raise_pch]
  | punchOut => dsimp only; rw [State.raise_apart, State.raise_pch]

theorem State.transferStagedManual_some {m : ManualEntry} {s : State} (h : s.pch.manual = some m) :
    s.transferStagedManual = s.unstaged.transferManual m := by
  simp only [State.transferStagedManual, h]; rfl

theorem State.transferStagedManual_none {s : State} (h : s.pch.manual = none) : s.transferStagedManual = s := by
  simp only [State.transferStagedManual, h]

theorem State.transferStagedManual_moved {m : ManualEntry} {s : State} (h : s.pch.manual = some m) :
    ManualMoved m s.pch s.transferStagedManual.pch := by
  rw [State.transferStagedManual_some h]
  exact s.unstaged.transferManual_moved m

theorem State.transferStagedManual_pch (s : State) :
    s.transferStagedManual.pch = { s.pch with lines := s.transferStagedManual.pch.lines, manual := none } := by
  cases hm : s.pch.manual with
  | none => rw [State.transferStagedManual_none hm, ← hm]
  | some m =>
    rw [State.transferStagedManual_some hm]
    exact s.unstaged.transferManual_pch m

/-- A staged manual entry raises its notice as it is transferred, and hands nothing on (R140). -/
theorem State.transferStagedManual_punched (s : State) :
    Punched [] (s.pch.manual.map fun m => manualNotice m s.pch).toList s.unstaged s.transferStagedManual := by
  cases hm : s.pch.manual with
  | none =>
    have hsame : s.unstaged = s := by rw [State.unstaged, ← hm]
    rw [State.transferStagedManual_none hm, hsame]
    exact .refl s
  | some m =>
    rw [State.transferStagedManual_some hm]
    refine ⟨?_, ?_, s.unstaged.transferManual_told m⟩
    · rw [s.unstaged.transferManual_apart m, List.append_nil]
    · rw [s.unstaged.transferManual_pch m]

end Sys2Proof.Machine
end

section
/-! A frame edge at the Punch Unit (R129, R134 to R137, R140): the entries due at it, the line records and reports that the
punch-outs and punch-ins leave one after the other, and the manual entry behind them. -/

namespace Sys2Proof.Machine

/-! ## The entries that an edge concerns -/

/-- The entry of a context that an edge of frame `n` transfers, by its action (R134). -/
def Pch.due (p : Pch) (a : Action) (n : Nat) (j : Fin 4) : Option Staged :=
  p.staged[j].filter fun x => decide (x.action = a ∧ x.target = n)

theorem Pch.due_eq_some {p : Pch} {a : Action} {n : Nat} {j : Fin 4} {x : Staged} :
    p.due a n j = some x ↔ p.staged[j] = some x ∧ x.action = a ∧ x.target = n := by
  simp [Pch.due]

theorem State.transferDue_none {a : Action} {n : Nat} {s : State} {j : Fin 4} (h : s.pch.due a n j = none) :
    s.transferDue a n j = s := by
  unfold State.transferDue
  split
  · next x hx =>
    rw [if_neg]
    intro hdue
    exact absurd (Pch.due_eq_some.mpr ⟨hx, hdue⟩) (by simp [h])
  · rfl

theorem State.transferDue_some {a : Action} {n : Nat} {s : State} {j : Fin 4} {x : Staged}
    (h : s.pch.due a n j = some x) : s.transferDue a n j = (s.setStaged j none).transfer j x := by
  obtain ⟨hx, hdue⟩ := Pch.due_eq_some.mp h
  simp only [State.transferDue, hx, hdue, and_self, if_true]

/-- The unit once the entry `x` of context `j` has left the list and is transferred. -/
def Pch.transferred (p : Pch) (j : Fin 4) (x : Staged) : Pch := Pch.punch { p with staged := p.staged.set j none } j x

theorem Pch.transferred_staged (p : Pch) (i j : Fin 4) (x : Staged) :
    (p.transferred j x).staged[i] = if i = j then none else p.staged[i] := by
  show (p.staged.set j none)[i.val] = _
  rw [Vector.getElem_set]
  simp [Fin.ext_iff, eq_comm]

theorem Pch.transferred_due (p : Pch) {i j : Fin 4} (hij : i ≠ j) (x : Staged) (a : Action) (n : Nat) :
    (p.transferred j x).due a n i = p.due a n i := by
  rw [Pch.due, Pch.transferred_staged, if_neg hij]; rfl

/-- The first of the contexts of `l` whose due entry moves line `k`. -/
def Pch.mover (p : Pch) (a : Action) (n : Nat) (l : List (Fin 4)) (k : Fin 8) : Option (Fin 4) :=
  l.find? fun j => (p.due a n j).any fun x => inSet k (p.reach j x)

/-- What the transfers for the contexts of `l` make one after the other, by the entry and the lines it moves. -/
def Pch.punches {β : Type} (p : Pch) (a : Action) (n : Nat) (f : Fin 4 → Staged → LineSet → β) (l : List (Fin 4)) :
    List β :=
  l.filterMap fun j => (p.due a n j).map fun x => f j x (setOf fun k => p.mover a n l k = some j)

section
variable {β : Type} (f : Fin 4 → Staged → LineSet → β) {p : Pch} {a : Action} {n : Nat} {j : Fin 4} {l : List (Fin 4)}

theorem Pch.mover_cons_none (h : p.due a n j = none) : p.mover a n (j :: l) = p.mover a n l := by
  funext k; simp [Pch.mover, h]

theorem Pch.punches_cons_none (h : p.due a n j = none) : p.punches a n f (j :: l) = p.punches a n f l := by
  unfold Pch.punches
  rw [Pch.mover_cons_none h, List.filterMap_cons_none (by simp [h])]

variable {x : Staged} (h : p.due a n j = some x)
include h

theorem Pch.mover_cons_some (k : Fin 8) :
    p.mover a n (j :: l) k = if inSet k (p.reach j x) then some j else p.mover a n l k := by
  simp only [Pch.mover, List.find?_cons, h, Option.any_some]
  split <;> simp_all

variable (hj : j ∉ l)
include hj

/-- A line that moved at one context moves at no later one. -/
theorem Pch.mover_transferred (k : Fin 8) :
    (p.transferred j x).mover a n l k = if inSet k (p.reach j x) then none else p.mover a n l k := by
  have htest : ∀ i ∈ l, ((p.transferred j x).due a n i).any (fun y => inSet k ((p.transferred j x).reach i y))
      = ((p.due a n i).any (fun y => inSet k (p.reach i y)) && !inSet k (p.reach j x)) := by
    intro i hi
    have hij : i ≠ j := fun h => hj (h ▸ hi)
    rw [Pch.transferred_due p hij]
    cases hy : p.due a n i with
    | none => rfl
    | some y =>
      have haction : y.action = x.action := (Pch.due_eq_some.mp hy).2.1.trans (Pch.due_eq_some.mp h).2.1.symm
      exact Pch.inSet_reach_punch (p := { p with staged := p.staged.set j none }) haction k
  rw [Pch.mover, List.find?_congr htest]
  split
  · next hk => simp [hk]
  · next hk => simp [hk, Pch.mover]

/-- The lines that move for the first of several contexts are those its entry reaches. -/
theorem Pch.mover_first : (setOf fun k => decide (p.mover a n (j :: l) k = some j)) = p.reach j x := by
  refine LineSet.ext_inSet _ _ fun k => ?_
  rw [inSet_setOf, Pch.mover_cons_some h]
  have hrest : p.mover a n l k ≠ some j := fun hk => hj (List.mem_of_find?_eq_some hk)
  split <;> simp_all

/-- Which lines move for a later context is seen alike before and after the transfer for the first. -/
theorem Pch.mover_later {i : Fin 4} (hi : i ∈ l) (k : Fin 8) :
    (p.transferred j x).mover a n l k = some i ↔ p.mover a n (j :: l) k = some i := by
  have hij : j ≠ i := fun h => hj (h ▸ hi)
  rw [Pch.mover_transferred h hj, Pch.mover_cons_some h]
  split <;> simp [hij]

theorem Pch.punches_cons_some :
    p.punches a n f (j :: l) = f j x (p.reach j x) :: (p.transferred j x).punches a n f l := by
  unfold Pch.punches
  rw [List.filterMap_cons_some (b := f j x (p.reach j x)) (by rw [h, Option.map_some, Pch.mover_first h hj])]
  refine congrArg _ (List.filterMap_congr fun i hi => ?_)
  have hij : i ≠ j := fun h => hj (h ▸ hi)
  simp only [Pch.transferred_due _ hij, Pch.mover_later h hj hi]

end

/-! ## All entries of one action -/

theorem State.transferDue_punched {a : Action} {n : Nat} {s : State} {j : Fin 4} {x : Staged}
    (h : s.pch.due a n j = some x) :
    Punched [punchReport j x (s.pch.reach j x)] [punchNotice j x (s.pch.reach j x)] s (s.transferDue a n j)
      ∧ (s.transferDue a n j).pch = s.pch.transferred j x := by
  rw [State.transferDue_some h, State.transfer_eq]
  refine ⟨⟨?_, ?_, Told.raise _ rfl rfl rfl⟩, State.raise_pch _ _⟩
  · rw [State.raise_apart, State.raise_pch]; rfl
  · rw [State.raise_pch]; rfl

/-- The due transfers of action `a` for the contexts of `l`, in their order, turned `s` into `t`: each due entry left the list,
and each line went to the first context whose entry moves it (R134 to R137). -/
structure DueTransferred (a : Action) (n : Nat) (l : List (Fin 4)) (s t : State) : Prop where
  punched : Punched (s.pch.punches a n punchReport l) (s.pch.punches a n punchNotice l) s t
  line : ∀ k : Fin 8, t.pch.lines[k] = (s.pch.mover a n l k).elim s.pch.lines[k] fun j => s.pch.lines[k].punch a j
  staged : ∀ j : Fin 4, t.pch.staged[j] = if j ∈ l ∧ (s.pch.due a n j).isSome then none else s.pch.staged[j]

section
variable {a : Action} {n : Nat} {j : Fin 4} {l : List (Fin 4)} {s t : State} (hj : j ∉ l)
include hj

/-- A context whose entry is not due is passed over. -/
theorem DueTransferred.skip (hx : s.pch.due a n j = none) (h : DueTransferred a n l s t) :
    DueTransferred a n (j :: l) s t where
  punched := by
    rw [Pch.punches_cons_none _ hx, Pch.punches_cons_none _ hx]
    exact h.punched
  line := by
    rw [Pch.mover_cons_none hx]
    exact h.line
  staged i := by
    rw [h.staged]
    by_cases hij : i = j
    · simp [hij, hx, hj]
    · simp [hij]

/-- A context whose entry is due is served, then those behind it. -/
theorem DueTransferred.cons {x : Staged} (hx : s.pch.due a n j = some x)
    (h : DueTransferred a n l (s.transferDue a n j) t) : DueTransferred a n (j :: l) s t := by
  obtain ⟨hfirst, hpch⟩ := State.transferDue_punched hx
  obtain ⟨hpunched, hlines, hstaged⟩ := h
  rw [hpch] at hpunched hlines hstaged
  refine ⟨?punched, fun k => ?line, fun i => ?staged⟩
  case punched =>
    rw [Pch.punches_cons_some _ hx hj, Pch.punches_cons_some _ hx hj]
    exact hfirst.trans hpunched
  case line =>
    have hline : (s.pch.transferred j x).lines[k]
        = if inSet k (s.pch.reach j x) then s.pch.lines[k].punch x.action j else s.pch.lines[k] := Pch.punch_line _ j x k
    rw [hlines, Pch.mover_transferred hx hj, Pch.mover_cons_some hx, hline, (Pch.due_eq_some.mp hx).2.1]
    split <;> rfl
  case staged =>
    rw [hstaged, Pch.transferred_staged]
    by_cases hij : i = j
    · simp [hij, hx, hj]
    · simp [hij, Pch.transferred_due _ hij]

end

theorem State.foldl_transferDue (a : Action) (n : Nat) {l : List (Fin 4)} (hl : l.Nodup) (s : State) :
    DueTransferred a n l s (l.foldl (State.transferDue a n) s) := by
  induction l generalizing s with
  | nil => exact ⟨.refl s, fun _ => rfl, fun _ => by simp⟩
  | cons j l ih =>
    obtain ⟨hj, hl⟩ := List.nodup_cons.mp hl
    have hrest := ih hl (s.transferDue a n j)
    rw [List.foldl_cons]
    cases hx : s.pch.due a n j with
    | none =>
      rw [State.transferDue_none hx] at hrest ⊢
      exact hrest.skip hj hx
    | some x => exact hrest.cons hj hx

/-! ## The punch-outs, the punch-ins and the manual entry of an edge -/

/-- A line moves at the punch-out of the context that owns it (R137). -/
theorem Pch.mover_out_eq_some (p : Pch) (n : Nat) (k : Fin 8) (j : Fin 4) :
    p.mover .punchOut n allCtx k = some j ↔ p.lines[k].owner = .context j ∧ (p.due .punchOut n j).isSome := by
  have htest (i : Fin 4) : ((p.due .punchOut n i).any fun x => inSet k (p.reach i x)) = true
      ↔ p.lines[k].owner = .context i ∧ (p.due .punchOut n i).isSome := by
    cases hx : p.due .punchOut n i with
    | none => simp
    | some x => simp [Pch.inSet_reach, (Pch.due_eq_some.mp hx).2.1]
  have hmoves (i : Fin 4) (h : p.mover .punchOut n allCtx k = some i) :=
    (htest i).mp (List.find?_some (p := fun i => (p.due .punchOut n i).any fun x => inSet k (p.reach i x)) h)
  refine ⟨hmoves j, fun h => ?_⟩
  have hfound : (p.mover .punchOut n allCtx k).isSome :=
    List.find?_isSome.mpr ⟨j, mem_allCtx j, (htest j).mpr h⟩
  obtain ⟨i, hi⟩ := Option.isSome_iff_exists.mp hfound
  obtain ⟨howner, -⟩ := hmoves i hi
  rw [hi, Owner.context.inj (howner.symm.trans h.1)]

/-- A line as the punch-outs of an edge leave it (R134, R137). -/
def Pch.freed (p : Pch) (n : Nat) (k : Fin 8) : Line :=
  match p.lines[k].owner with
  | .context j => if (p.due .punchOut n j).isSome then { p.lines[k] with owner := .nobody, isIn := false } else p.lines[k]
  | .nobody => p.lines[k]
  | .manual => p.lines[k]

theorem Pch.mover_out_line (p : Pch) (n : Nat) (k : Fin 8) :
    ((p.mover .punchOut n allCtx k).elim p.lines[k] fun j => p.lines[k].punch .punchOut j) = p.freed n k := by
  have hiff := p.mover_out_eq_some n k
  unfold Pch.freed
  cases hm : p.mover .punchOut n allCtx k with
  | some j =>
    obtain ⟨howner, hdue⟩ := (hiff j).mp hm
    simp only [howner, hdue, if_true]
    rfl
  | none =>
    split
    · next j howner =>
      rw [if_neg fun hdue => by simpa [hm] using (hiff j).mpr ⟨howner, hdue⟩]
      rfl
    all_goals rfl

/-- A line free for a punch-in goes to the first context whose due assignment names it (R135, R136). -/
theorem Pch.mover_in (p : Pch) (n : Nat) (k : Fin 8) : p.mover .punchIn n allCtx k =
    if p.lines[k].mode = .cue ∧ p.lines[k].owner = .nobody ∧ p.unit = .normal then
      allCtx.find? fun j => (p.due .punchIn n j).any fun x => inSet k x.lines
    else none := by
  have htest (j : Fin 4) : ((p.due .punchIn n j).any fun x => inSet k (p.reach j x))
      = ((p.due .punchIn n j).any (fun x => inSet k x.lines)
        && decide (p.lines[k].mode = .cue ∧ p.lines[k].owner = .nobody ∧ p.unit = .normal)) := by
    cases hx : p.due .punchIn n j with
    | none => rfl
    | some x => simp only [Option.any_some, Pch.inSet_reach, (Pch.due_eq_some.mp hx).2.1]
  simp only [Pch.mover, htest]
  split
  · next h => simp only [decide_eq_true h, Bool.and_true]
  · next h => simp only [decide_eq_false h, Bool.and_false, List.find?_eq_none, Bool.false_eq_true, not_false_eq_true,
      implies_true]

/-! ## A frame edge -/

/-- The Punch Unit takes a frame edge and records its frame (R134). -/
def State.edgeTaken (e : FrameEdge) (s : State) : State :=
  { s.taken (.pchFrameEdge e) with pch := { s.pch with lastEdge := some e.n } }

/-- The context that a line goes to at an edge of frame `n` (R135, R136). -/
def Pch.taker (p : Pch) (n : Nat) (k : Fin 8) : Option (Fin 4) :=
  if (p.freed n k).mode = .cue ∧ (p.freed n k).owner = .nobody ∧ p.unit = .normal then
    allCtx.find? fun j => (p.due .punchIn n j).any fun x => inSet k x.lines
  else none

/-- The unit as the punch-outs and punch-ins of an edge of frame `n` leave its lines (R134 to R137). -/
def Pch.afterEdge (p : Pch) (n : Nat) : Pch :=
  { p with lines := Vector.ofFn fun k => match p.taker n k with
      | some j => { p.freed n k with owner := .context j, isIn := true }
      | none => p.freed n k }

theorem Pch.due_eq_none_of_due {p : Pch} {a b : Action} {n : Nat} {j : Fin 4} (h : (p.due a n j).isSome) (hab : b ≠ a) :
    p.due b n j = none := by
  obtain ⟨x, hx⟩ := Option.isSome_iff_exists.mp h
  obtain ⟨hx, ha, -⟩ := Pch.due_eq_some.mp hx
  rw [Option.eq_none_iff_forall_ne_some]
  intro y hy
  obtain ⟨hy, hb, -⟩ := Pch.due_eq_some.mp hy
  rw [hx] at hy
  cases hy
  exact hab (hb.symm.trans ha)

/-- An entry is transferred at its target by the action it carries. -/
theorem Pch.any_target (p : Pch) (n : Nat) (j : Fin 4) : (p.staged[j].any fun x => decide (x.target = n)) =
    ((p.due .punchOut n j).isSome || (p.due .punchIn n j).isSome) := by
  unfold Pch.due
  cases p.staged[j] with
  | none => rfl
  | some x => cases hx : x.action <;> simp [Option.filter_some, hx, apply_ite Option.isSome]

/-- The punch-outs of an edge of frame `n` (R134). -/
def State.punchOuts (n : Nat) (s : State) : State := allCtx.foldl (State.transferDue .punchOut n) s

/-- The punch-ins of an edge of frame `n` (R134). -/
def State.punchIns (n : Nat) (s : State) : State := allCtx.foldl (State.transferDue .punchIn n) s

section
variable (n : Nat) (s : State) (j : Fin 4) (k : Fin 8)

theorem State.punchOuts_transferred : DueTransferred .punchOut n allCtx s (s.punchOuts n) :=
  State.foldl_transferDue .punchOut n allCtx_nodup s

theorem State.punchIns_transferred : DueTransferred .punchIn n allCtx s (s.punchIns n) :=
  State.foldl_transferDue .punchIn n allCtx_nodup s

theorem State.punchOuts_line : (s.punchOuts n).pch.lines[k] = s.pch.freed n k :=
  ((s.punchOuts_transferred n).line k).trans (Pch.mover_out_line s.pch n k)

theorem State.punchOuts_unit : (s.punchOuts n).pch.unit = s.pch.unit := by
  rw [(s.punchOuts_transferred n).punched.unit]

theorem State.punchOuts_staged : (s.punchOuts n).pch.staged[j] =
    if (s.pch.due .punchOut n j).isSome then none else s.pch.staged[j] :=
  ((s.punchOuts_transferred n).staged j).trans (if_congr (and_iff_right (mem_allCtx j)) rfl rfl)

/-- The punch-outs leave the punch-ins due at the edge. -/
theorem State.punchOuts_due : (s.punchOuts n).pch.due .punchIn n j = s.pch.due .punchIn n j := by
  rw [Pch.due, State.punchOuts_staged]
  split
  · next hout => rw [Pch.due_eq_none_of_due hout (by decide)]; rfl
  · rfl

theorem State.punchOuts_mover : (s.punchOuts n).pch.mover .punchIn n allCtx k = s.pch.taker n k := by
  simp only [Pch.mover_in, Pch.taker, State.punchOuts_line, State.punchOuts_unit, State.punchOuts_due]

theorem Pch.afterEdge_line (p : Pch) : (p.afterEdge n).lines[k] = match p.taker n k with
    | some j => { p.freed n k with owner := .context j, isIn := true }
    | none => p.freed n k := Vector.getElem_ofFn k.isLt

theorem State.punchIns_line : ((s.punchOuts n).punchIns n).pch.lines[k] = (s.pch.afterEdge n).lines[k] := by
  rw [((s.punchOuts n).punchIns_transferred n).line k, State.punchOuts_mover, State.punchOuts_line, Pch.afterEdge_line]
  cases s.pch.taker n k <;> rfl

theorem State.punchIns_staged : ((s.punchOuts n).punchIns n).pch.staged[j] =
    if s.pch.staged[j].any (fun x => decide (x.target = n)) then none else s.pch.staged[j] := by
  rw [((s.punchOuts n).punchIns_transferred n).staged j, State.punchOuts_due, State.punchOuts_staged, Pch.any_target]
  by_cases hout : (s.pch.due .punchOut n j).isSome
  · simp only [hout, if_true, ite_self, Bool.true_or]
  · simp only [hout, mem_allCtx, true_and, Bool.false_or, if_false, Bool.false_eq_true]

end

/-- What transfers make one after the other, where `g` says what each of them makes. -/
theorem Pch.punches_eq {β : Type} {p q : Pch} {a : Action} {n : Nat} {f : Fin 4 → Staged → LineSet → β}
    {g : Fin 4 → Staged → β} {l : List (Fin 4)} (hdue : ∀ j, p.due a n j = q.due a n j)
    (hset : ∀ j x, q.due a n j = some x → f j x (setOf fun k => p.mover a n l k = some j) = g j x) :
    p.punches a n f l = l.filterMap fun j => (q.due a n j).map (g j) := by
  unfold Pch.punches
  refine List.filterMap_congr fun j _ => ?_
  rw [hdue]
  cases hx : q.due a n j with
  | none => rfl
  | some x => exact congrArg some (hset j x hx)

/-- The lines that a punch-in of the edge grants to a context. -/
def Pch.granted (p : Pch) (n : Nat) (j : Fin 4) : LineSet := setOf fun k => decide (p.taker n k = some j)

/-- The punch-out of a context moves the lines that the context owns (R137). -/
theorem Pch.setOf_mover_out {p : Pch} {n : Nat} {j : Fin 4} {x : Staged} (h : p.due .punchOut n j = some x) :
    (setOf fun k => decide (p.mover .punchOut n allCtx k = some j)) = p.ownedBy j := by
  simp only [Pch.mover_out_eq_some, h, Option.isSome_some, and_true]
  rfl

/-- The reports of an edge, in the order of its transfers (R134, R136, R137). -/
def Pch.edgeReports (p : Pch) (n : Nat) : List Instr :=
  (allCtx.filterMap fun j => (p.due .punchOut n j).map fun x =>
    .punchReport { ctx := j, loop := x.loop, action := .punchOut, lines := p.ownedBy j })
  ++ allCtx.filterMap fun j => (p.due .punchIn n j).map fun x =>
    .punchReport { ctx := j, loop := x.loop, action := .punchIn, lines := p.granted n j }

/-- The notices of the context entries that an edge transfers (R136, R137). -/
def Pch.edgeNotices (p : Pch) (n : Nat) : List Notice :=
  (allCtx.filterMap fun j => (p.due .punchOut n j).map fun _ => .punch (.context j) 0 (p.ownedBy j) 0)
  ++ allCtx.filterMap fun j => (p.due .punchIn n j).map fun x =>
    .punch (.context j) (p.granted n j) 0 (x.lines &&& ~~~(p.granted n j))

theorem State.punchIns_punched (n : Nat) (s : State) :
    Punched (s.pch.edgeReports n) (s.pch.edgeNotices n) s ((s.punchOuts n).punchIns n) := by
  have houts := (s.punchOuts_transferred n).punched
  have hins := ((s.punchOuts n).punchIns_transferred n).punched
  have haction {a : Action} {j : Fin 4} {x : Staged} (h : s.pch.due a n j = some x) : x.action = a :=
    (Pch.due_eq_some.mp h).2.1
  rw [Pch.punches_eq (fun _ => rfl) fun j x h => by rw [Pch.setOf_mover_out h, punchReport, haction h],
    Pch.punches_eq (fun _ => rfl) fun j x h => by rw [Pch.setOf_mover_out h, punchNotice, haction h]] at houts
  have hgranted (j : Fin 4) :
      (setOf fun k => decide ((s.punchOuts n).pch.mover .punchIn n allCtx k = some j)) = s.pch.granted n j := by
    simp only [State.punchOuts_mover]; rfl
  rw [Pch.punches_eq (s.punchOuts_due n) fun j x h => by rw [hgranted, punchReport, haction h],
    Pch.punches_eq (s.punchOuts_due n) fun j x h => by rw [hgranted, punchNotice, haction h]] at hins
  exact houts.trans hins

/-- The transfer of a manual entry finds the line records alone. -/
theorem manualNotice_congr {p q : Pch} (h : ∀ k : Fin 8, p.lines[k] = q.lines[k]) (m : ManualEntry) :
    manualNotice m p = manualNotice m q := by
  have hmoves : ManualMoves m p = ManualMoves m q := funext fun k => by rw [ManualMoves, h]; rfl
  simp only [manualNotice, hmoves, h]

theorem ManualMoved.congr {p q r : Pch} (h : ∀ k : Fin 8, p.lines[k] = q.lines[k]) {m : ManualEntry}
    (hm : ManualMoved m p r) : ManualMoved m q r := by
  intro k
  rw [hm k, ManualMoves, h]; rfl

/-- All that a frame edge does at the Punch Unit, once it is taken (R134). -/
def State.punchWork (n : Nat) (s : State) : State := ((s.punchOuts n).punchIns n).transferStagedManual

section
variable (n : Nat) (s : State)

theorem State.edge_manual : ((s.punchOuts n).punchIns n).pch.manual = s.pch.manual := by
  rw [(s.punchIns_punched n).unit]

theorem Pch.punchNotices_length (p : Pch) (n : Nat) :
    (p.edgeNotices n ++ (p.manual.map fun m => manualNotice m (p.afterEdge n)).toList).length ≤ 9 := by
  have hmanual : (p.manual.map fun m => manualNotice m (p.afterEdge n)).toList.length ≤ 1 := by cases p.manual <;> simp
  have hcontexts (f : Fin 4 → Option Notice) : (allCtx.filterMap f).length ≤ 4 := List.length_filterMap_le f allCtx
  rw [Pch.edgeNotices, List.length_append, List.length_append]
  exact Nat.add_le_add (Nat.add_le_add (hcontexts _) (hcontexts _)) hmanual

/-- The whole of what a frame edge hands on, raises and leaves of the unit. -/
theorem State.punchWork_punched : Punched (s.pch.edgeReports n)
    (s.pch.edgeNotices n ++ (s.pch.manual.map fun m => manualNotice m (s.pch.afterEdge n)).toList) s.unstaged
    (s.punchWork n) := by
  have hmanual := ((s.punchOuts n).punchIns n).transferStagedManual_punched
  simp only [State.edge_manual, manualNotice_congr (s.punchIns_line n)] at hmanual
  have := (s.punchIns_punched n).unstaged.trans hmanual
  rwa [List.append_nil] at this

theorem State.punchWork_staged (j : Fin 4) : (s.punchWork n).pch.staged[j] =
    if s.pch.staged[j].any (fun x => decide (x.target = n)) then none else s.pch.staged[j] := by
  rw [State.punchWork, State.transferStagedManual_pch]
  dsimp only
  rw [State.punchIns_staged]

theorem State.punchWork_line_of_no_manual {s : State} (h : s.pch.manual = none) (k : Fin 8) :
    (s.punchWork n).pch.lines[k] = (s.pch.afterEdge n).lines[k] := by
  rw [State.punchWork, State.transferStagedManual_none ((s.edge_manual n).trans h)]
  exact s.punchIns_line n k

theorem State.punchWork_moved {s : State} {m : ManualEntry} (h : s.pch.manual = some m) :
    ManualMoved m (s.pch.afterEdge n) (s.punchWork n).pch :=
  (State.transferStagedManual_moved ((s.edge_manual n).trans h)).congr (s.punchIns_line n)

end

theorem execPchFrameEdge_eq (e : FrameEdge) (s : State) :
    exec (.pchFrameEdge e) s = .next ((s.edgeTaken e).punchWork e.n) := rfl

end Sys2Proof.Machine

open Sys2Proof Sys2Proof.Machine in
/-- Settles O50: the punch-outs, the punch-ins and the manual entry one after the other (`State.punchWork_punched`), each line
going to the first context whose due entry moves it (`DueTransferred`). -/
theorem punchesAreTransferredAtTheirFrame : Obligations.PunchesAreTransferredAtTheirFrame := by
  intro e s room
  have hwork := (s.edgeTaken e).punchWork_punched e.n
  have hstaged := (s.edgeTaken e).punchWork_staged e.n
  have hlines := State.punchWork_line_of_no_manual (s := s.edgeTaken e) e.n
  have hmoved m := State.punchWork_moved (s := s.edgeTaken e) (m := m) e.n
  have hroom := Nat.le_trans (Nat.add_le_add_left ((s.edgeTaken e).pch.punchNotices_length e.n) _) room
  rw [execPchFrameEdge_eq]
  generalize (s.edgeTaken e).punchWork e.n = t at *
  exact ⟨t, rfl, hwork.apart, hwork.unit, hstaged, hlines, hmoved, hwork.told.noticed (.inl hroom)⟩
end

section
/-! PUNCH_MANUAL and the state events at the Punch Unit (R139 to R141), and what its commands and events share: a notice that
is raised where a line went out. -/

namespace Sys2Proof.Machine

/-! ## A notice that is raised where a line went out -/

section
variable {c : Prop} [Decidable c] (n : Notice)

theorem Told.raise_unless {s u : State} (h : u.lnk = s.lnk) (h' : u.lastAnswer = s.lastAnswer) (h'' : u.ties = s.ties) :
    Told (if c then [] else [n]) s (if c then u else u.raise n) := by
  split
  · exact Told.of_lnk h h' h''
  · exact Told.raise n h h' h''

theorem State.raise_unless_apart (u : State) : (if c then u else u.raise n).apart = u.apart := by
  split
  · rfl
  · exact State.raise_apart n u

theorem State.raise_unless_pch (u : State) : (if c then u else u.raise n).pch = u.pch := by
  split
  · rfl
  · exact State.raise_pch n u

end

@[simp] theorem State.answers_pch (i : Instr) (r : Result) (d : AnswerData) (s u : State) :
    (State.answers i r d s u).pch = u.pch := by
  simp [State.answers]

theorem roomFor_unless {c : Prop} [Decidable c] (n : Notice) {l : Link} (h : l.roomFor 1) :
    l.roomFor (if c then [] else [n]).length := by
  split
  · exact Nat.le_trans (Nat.le_succ _) h
  · exact h

/-! ## PUNCH_MANUAL and the state events (R139 to R141) -/

theorem actionOf_of_gt {code : Byte} (h : 1 < code.toNat) : actionOf code = none := by
  have hne (n : Byte) (hn : n.toNat ≤ 1) : code ≠ n := by rintro rfl; omega
  rw [actionOf, if_neg (hne 0 (by decide)), if_neg (hne 1 (by decide))]

theorem actionOf_of_le {code : Byte} (h : ¬ 1 < code.toNat) :
    actionOf code = some (if code = 0 then .punchOut else .punchIn) := by
  have hcode : code = 0 ∨ code = 1 := by bv_omega
  obtain rfl | rfl := hcode <;> rfl

theorem LineSet.eq_zero_iff (a : LineSet) : a = 0 ↔ ∀ k, inSet k a = false := by
  refine ⟨fun h k => by rw [h]; exact BitVec.getLsbD_zero, fun h => LineSet.ext_inSet _ _ fun k => ?_⟩
  rw [h k]; exact BitVec.getLsbD_zero.symm

/-- PUNCH_MANUAL is refused where it names a line in CUE mode (R139). -/
theorem Pch.not_allManual_iff (p : Pch) (set : LineSet) :
    (!p.allManual set) = true ↔ ∃ k : Fin 8, inSet k set = true ∧ p.lines[k].mode ≠ .manual := by
  have hmode (m : LineMode) : m = .cue ↔ m ≠ .manual := by cases m <;> decide
  have hall : p.allManual set = true ↔ ∀ k : Fin 8, ¬ (inSet k set = true ∧ p.lines[k].mode ≠ .manual) := by
    rw [Pch.allManual, beq_iff_eq, LineSet.eq_zero_iff]
    simp only [Pch.manualRefused, Pch.inSet_linesWhere, hmode, Bool.and_eq_false_iff, decide_eq_false_iff_not, not_and_or,
      Bool.not_eq_true]
  rw [Bool.not_eq_true', ← Bool.not_eq_true, hall, not_forall]
  simp only [not_not]

theorem State.punchManual_running {s : State} (h : s.pch.view = .locked ∨ s.pch.view = .freewheel) (m : ManualEntry) :
    s.punchManual m = { s with pch := { s.pch with manual := some m } } := by
  obtain h | h := h <;> rw [State.punchManual, h]

theorem State.punchManual_idle {s : State} (h : ¬ (s.pch.view = .locked ∨ s.pch.view = .freewheel)) (m : ManualEntry) :
    s.punchManual m = s.transferManual m := by
  rw [State.punchManual]
  cases hv : s.pch.view <;> simp_all

/-- The Punch Unit takes a state event: its view of the position follows (R141). -/
def State.viewTaken (state : PosState) (dir : Dir) (s : State) : State :=
  { s.taken (.pchStateEvent state dir) with pch := { s.pch with view := state } }

theorem execPchStateEvent_eq (state : PosState) (dir : Dir) (s : State) : exec (.pchStateEvent state dir) s =
    .next (if state = .locked ∨ state = .freewheel then s.viewTaken state dir
      else (s.viewTaken state dir).transferStagedManual) := by
  cases state <;> rfl

theorem State.transferStagedManual_apart (s : State) : s.transferStagedManual.apart =
    { s with pch := { s.pch with lines := s.transferStagedManual.pch.lines, manual := none } }.apart := by
  rw [← s.transferStagedManual_pch, s.transferStagedManual_punched.apart, List.append_nil]; rfl

end Sys2Proof.Machine

open Sys2Proof Sys2Proof.Machine in
/-- Settles O53: the checks of PUNCH_MANUAL in order, then the entry staged (`State.punchManual_running`) or transferred
(`State.punchManual_idle`); a state event that stops the position transfers the staged entry. -/
theorem manualPunchingMovesManualLines : Obligations.ManualPunchingMovesManualLines := by
  intro lines action state dir s room
  refine ⟨⟨_, rfl, ?command⟩, _, execPchStateEvent_eq state dir s, ?event⟩
  case command =>
    dsimp only
    split
    · next hbad =>
      refine State.owner_refused ?_
      by_cases haction : 1 < action.toNat
      · rw [actionOf_of_gt haction]
      · rw [actionOf_of_le haction]
        exact if_pos (hbad.resolve_right haction)
    · next hgood =>
      obtain ⟨hlines, haction⟩ := not_or.mp hgood
      refine State.owner_check (by rw [actionOf_of_le haction]; exact if_neg hlines) Iff.rfl fun _ hchecks => ?_
      refine State.owner_check hchecks (s.pch.not_allManual_iff lines) fun _ hwork => ?_
      by_cases hview : s.pch.view = .locked ∨ s.pch.view = .freewheel
      · rw [State.punchManual_running hview] at hwork
        rw [if_pos hview, State.owner_eq hwork]
        exact ⟨State.answers_apart .., State.answers_answered (Noticed.of_lnk rfl rfl rfl)⟩
      · rw [State.punchManual_idle hview] at hwork
        rw [if_neg hview, State.owner_eq hwork, State.answers_apart, State.answers_pch, ← State.transferManual_pch]
        exact ⟨State.transferManual_apart _ s, State.transferManual_moved _ s,
          State.answers_answered ((State.transferManual_told _ s).noticed (.inl room))⟩
  case event =>
    dsimp only
    split
    · rfl
    · refine ⟨fun h => State.transferStagedManual_none h, fun m h => ⟨State.transferStagedManual_apart _, ?_, ?_⟩⟩
      · exact State.transferStagedManual_moved (s := s.viewTaken state dir) h
      · have htold := (s.viewTaken state dir).transferStagedManual_punched.told
        have hmanual : (s.viewTaken state dir).pch.manual = some m := h
        rw [hmanual] at htold
        exact htold.noticed (.inl room)
end


section
/-! Stage requests and releases (R133, R138), SET_LINES (R130, R131), and the guard (R142, R143, R146, R176). -/

namespace Sys2Proof.Machine

/-! ## Stage requests (R133) -/

theorem State.transfer_room {s : State} {n : Nat} (h : s.lnk.roomFor (n + 1)) (j : Fin 4) (x : Staged) :
    (s.transfer j x).lnk.roomFor n := by
  rw [State.transfer_eq]
  exact State.raise_room _ _ n h

/-- The entry that a stage request asks for. -/
def requestEntry (r : StageRequest) : Staged :=
  { loop := r.loop, action := r.action, lines := r.lines, target := r.target }

/-- An entry is transferred at once where its target is the frame of the last edge taken, and is placed otherwise. -/
theorem State.placeEntry_placed {s : State} (room : s.lnk.roomFor 1) (j : Fin 4) (x : Staged) :
    if s.pch.lastEdge = some x.target then Transferred j x s (s.placeEntry j x)
    else s.placeEntry j x = s.setStaged j (some x) := by
  unfold State.placeEntry
  split
  · exact State.transfer_transferred j x s room
  · rfl

theorem State.stageEntry_none {s : State} {j : Fin 4} (h : s.pch.staged[j] = none) (x : Staged) :
    s.stageEntry j x = s.placeEntry j x := by
  rw [State.stageEntry, h]

theorem State.stageEntry_some {s : State} {j : Fin 4} {old : Staged} (h : s.pch.staged[j] = some old) (x : Staged) :
    s.stageEntry j x = ((s.setStaged j none).transfer j old).placeEntry j x := by
  rw [State.stageEntry, h]

/-! ## Releases (R138) -/

theorem State.releaseLines_pch (j : Fin 4) (s : State) :
    (s.releaseLines j).pch = Pch.putOut (s.pch.ownedBy j) { s.pch with staged := s.pch.staged.set j none } :=
  State.raise_unless_pch _ _

theorem State.releaseLines_apart (j : Fin 4) (s : State) :
    (s.releaseLines j).apart = { s with pch := (s.releaseLines j).pch }.apart := by
  rw [State.releaseLines_pch]
  exact State.raise_unless_apart _ _

theorem State.releaseLines_told (j : Fin 4) (s : State) : Told
    (if s.pch.ownedBy j = 0 then [] else [.punch (.context j) 0 (s.pch.ownedBy j) 0]) s (s.releaseLines j) :=
  Told.raise_unless _ rfl rfl rfl

theorem State.releaseLines_line (j : Fin 4) (s : State) (k : Fin 8) : (s.releaseLines j).pch.lines[k] =
    if s.pch.lines[k].owner = .context j then { s.pch.lines[k] with owner := .nobody, isIn := false }
    else s.pch.lines[k] := by
  rw [State.releaseLines_pch]
  refine (Pch.putOut_line _ _ k.val k.isLt).trans (if_congr ?_ rfl rfl)
  rw [Pch.inSet_ownedBy, decide_eq_true_iff]

end Sys2Proof.Machine

open Sys2Proof Sys2Proof.Machine in
/-- Settles O51: a request or release goes by its turn; in turn, a request transfers an older entry and places its own
(`State.placeEntry_placed`), and a release puts out what its context owns. -/
theorem stageRequestsAndReleases : Obligations.StageRequestsAndReleases := by
  intro r j loop s room first
  have hroom : s.lnk.roomFor 1 := Nat.le_trans (Nat.le_succ _) room
  refine ⟨fun h => ?requestWaits, fun h => ?releaseWaits, fun h => ?request, fun h => ?release⟩
  case requestWaits =>
    exact congrArg Host.Outcome.next (State.takeInTurn_neg (State.not_inTurn_of_oldest (fun j => by cases j <;> rfl) h) _)
  case releaseWaits =>
    exact congrArg Host.Outcome.next (State.takeInTurn_neg (State.not_inTurn_of_oldest (fun j => by cases j <;> rfl) h) _)
  case request =>
    have hturn := State.inTurn_of_oldest (i := .stageRequest r) (fun j => by cases j <;> rfl) h
    refine ⟨_, congrArg Host.Outcome.next (State.takeInTurn_pos hturn _), fun hnone => ?_, fun old hold => ?_⟩
    · rw [State.stageEntry_none (s := s.taken (.stageRequest r)) hnone]
      exact State.placeEntry_placed (s := s.taken (.stageRequest r)) hroom r.ctx (requestEntry r)
    · have hplaced := State.placeEntry_placed
        (State.transfer_room (s := (s.taken (.stageRequest r)).setStaged r.ctx none) room r.ctx old) r.ctx (requestEntry r)
      rw [State.stageEntry_some (s := s.taken (.stageRequest r)) hold]
      exact ⟨_, State.transfer_transferred r.ctx old _ hroom, hplaced⟩
  case release =>
    have hturn := State.inTurn_of_oldest (i := .release j loop) (fun j => by cases j <;> rfl) h
    refine ⟨_, congrArg Host.Outcome.next (State.takeInTurn_pos hturn _), ?_, State.releaseLines_line j _, ?_⟩
    · rw [State.releaseLines_apart, State.releaseLines_pch]; rfl
    · exact (State.releaseLines_told j _).noticed (.inl (roomFor_unless _ hroom))

namespace Sys2Proof.Machine

/-! ## SET_LINES (R131) -/

/-- SET_LINES is refused where it would change the mode of a line that a context owns. -/
theorem Pch.busy_iff (p : Pch) (manual : LineSet) : p.busy manual = true ↔
    ∃ (k : Fin 8) (j : Fin 4), p.lines[k].owner = .context j ∧ p.lines[k].mode ≠ modeGiven manual k := by
  rw [Pch.busy, List.any_eq_true]
  refine exists_congr fun k => ?_
  rw [and_iff_right (mem_allLines k)]
  cases howner : p.lines[k].owner <;> simp

theorem Line.set_eq (mode : LineMode) (activeLow : Bool) (l : Line) : l.set mode activeLow =
    { mode := mode, activeLow := activeLow,
      owner := if decide (l.owner = .manual ∧ mode = .cue) then .nobody else l.owner,
      isIn := l.isIn && !decide (l.owner = .manual ∧ mode = .cue) } := by
  unfold Line.set
  by_cases h : l.owner = .manual ∧ mode = .cue
  · simp only [if_pos h, decide_eq_true h, if_true, Bool.not_true, Bool.and_false]; rfl
  · simp only [if_neg h, decide_eq_false h, Bool.false_eq_true, if_false, Bool.not_false, Bool.and_true]

theorem Pch.leaving_eq (p : Pch) (manual : LineSet) :
    p.leaving manual = setOf fun k => decide (p.lines[k].owner = .manual ∧ modeGiven manual k = .cue) := by
  simp only [Bool.decide_and]; rfl

/-- The work of a SET_LINES that passed its check. -/
def State.setLines (manual activeLow : LineSet) (s : State) : State :=
  let t := { s with pch := s.pch.setLines manual activeLow }
  if s.pch.leaving manual = 0 then t else t.raise (.punch .manual 0 (s.pch.leaving manual) 0)

section
variable (manual activeLow : LineSet) (s : State)

theorem State.setLines_pch : (s.setLines manual activeLow).pch = s.pch.setLines manual activeLow :=
  State.raise_unless_pch _ _

theorem State.setLines_apart :
    (s.setLines manual activeLow).apart = { s with pch := s.pch.setLines manual activeLow }.apart :=
  State.raise_unless_apart _ _

theorem State.setLines_noticed (room : s.lnk.roomFor 1) :
    let out := setOf fun k => decide (s.pch.lines[k].owner = .manual ∧ modeGiven manual k = .cue)
    Noticed (if out = 0 then [] else [.punch .manual 0 out 0]) s (s.setLines manual activeLow) := by
  rw [← Pch.leaving_eq]
  exact (Told.raise_unless _ rfl rfl rfl).noticed (.inl (roomFor_unless _ room))

end

end Sys2Proof.Machine

open Sys2Proof Sys2Proof.Machine in
/-- Settles O52: the one check (`Pch.busy_iff`), then every line as `Line.set` leaves it. -/
theorem setLinesSetsModesAndPolarities : Obligations.SetLinesSetsModesAndPolarities := by
  intro manual activeLow s room
  refine ⟨_, rfl, State.owner_check rfl (s.pch.busy_iff manual) fun _ hwork => ?_⟩
  have hline (k : Fin 8) := (s.pch.setLines_line manual activeLow k).trans (Line.set_eq ..)
  rw [State.owner_eq (u := s.setLines manual activeLow) hwork, State.answers_apart, State.setLines_apart]
  simp only [State.punchOut, State.answers_pch, State.setLines_pch]
  refine ⟨rfl, hline, fun k => ?_, State.answers_answered (s.setLines_noticed manual activeLow room)⟩
  rw [hline]; rfl

namespace Sys2Proof.Machine

/-! ## The guard (R142, R143, R146) -/

/-- The Punch Unit takes a fall of GUARD, made in the same event where none waits (R176, log entry 19). -/
def State.fallTaken (s : State) : State :=
  { s with
    board := { s.board with guardHigh := s.board.guardHigh && decide (Instr.guardTrip .taken ∈ s.raised) },
    raised := s.raised.erase (Instr.guardTrip .taken) }

theorem State.fallWaits_iff (s : State) : s.fallWaits = true ↔ Instr.guardTrip .taken ∈ s.raised := List.contains_iff_mem

theorem execGuardTrip_taken (s : State) : exec (.guardTrip .taken) s = .next s.fallTaken.tripGuard := by
  show Host.Outcome.next (if s.fallWaits then _ else _) = _
  by_cases h : Instr.guardTrip .taken ∈ s.raised
  · rw [if_pos (s.fallWaits_iff.mpr h), State.fallTaken, decide_eq_true h, Bool.and_true]; rfl
  · rw [if_neg (mt s.fallWaits_iff.mp h), State.fallTaken, decide_eq_false h, Bool.and_false, List.erase_of_not_mem h]; rfl

theorem State.tripGuard_pch (s : State) : s.tripGuard.pch = s.pch.trip := State.raise_pch _ _

theorem State.tripGuard_apart (s : State) :
    s.tripGuard.apart = { s with raised := s.raised ++ [Instr.guardReport], pch := s.pch.trip }.apart := State.raise_apart _ _

theorem State.tripGuard_told (s : State) : Told [.guardTripped s.pch.linesIn] s s.tripGuard := Told.raise _ rfl rfl rfl

end Sys2Proof.Machine

open Sys2Proof Sys2Proof.Machine in
/-- Settles O54: a fall taken trips the unit from the state of `State.fallTaken`, whether or not a fall waited; GUARD_RELEASE has
its one check. -/
theorem guardTripsAndReleases : Obligations.GuardTripsAndReleases := by
  intro s room
  refine ⟨rfl, ⟨_, execGuardTrip_taken s, ?_, fun k => ?_, fun j => ?_, ?_⟩, rfl, _, rfl, ?_⟩
  · rw [State.tripGuard_apart, State.tripGuard_pch]; rfl
  · rw [State.tripGuard_pch]
    exact mapLines_get _ _ k
  · rw [State.tripGuard_pch]
    exact Vector.getElem_replicate j.isLt
  · exact s.fallTaken.tripGuard_told.noticed (.inl room)
  · have hpass : (s.board.guardHigh || s.fallWaits) = true ↔ s.board.guardHigh = true ∨ Instr.guardTrip .taken ∈ s.raised := by
      rw [Bool.or_eq_true, s.fallWaits_iff]
    split
    · next h =>
      rw [State.owner_eq (if_pos (hpass.mpr h))]
      exact ⟨State.answers_apart .., State.answers_answered (Noticed.of_lnk rfl rfl rfl)⟩
    · next h => exact State.owner_refused (if_neg (mt hpass.mp h))
end

section
/-! The Voice Gate (R158, R159): what a forward tick makes of the run, and which run it qualifies. -/

namespace Sys2Proof.Machine

/-! ## The run after a forward tick (R159) -/

section
variable {v : Vgt} {consecutive : Bool}

theorem Vgt.countTick_silent (hlevel : v.level = false) (t : Nat) : v.countTick t consecutive = v.idle :=
  if_neg (by simp [hlevel])

/-- A run begins where none runs, and anew after a gap in the ticks. -/
theorem Vgt.countTick_begins (hlevel : v.level = true) (h : v.run = .idle ∨ consecutive = false) (t : Nat) :
    v.countTick t consecutive = v.begin t := by
  refine (if_pos hlevel).trans ?_
  rcases h with hrun | rfl
  · rw [hrun]
  · cases v.run <;> rfl

theorem Vgt.countTick_counts (hlevel : v.level = true) (hrun : v.run = .counting) (t : Nat) :
    v.countTick t true = { v with count := v.count + 1 } := by
  simp only [Vgt.countTick, hlevel, hrun, if_true]

theorem Vgt.countTick_qualified (hlevel : v.level = true) (hrun : v.run = .qualified) (t : Nat) :
    v.countTick t true = v := by
  simp only [Vgt.countTick, hlevel, hrun, if_true]

/-- Only a counting run qualifies. -/
theorem Vgt.qualifies_iff (v : Vgt) : v.qualifies = true ↔ v.run = .counting ∧ v.qualify ≤ v.count := by
  simp [Vgt.qualifies]

end

/-! ## Ticks at the Voice Gate -/

/-- A forward tick, `w` being the run after it and before it is qualified. -/
theorem execVgtTick_forward {s : State} {t : Nat} {w : Vgt} (hw : s.vgt.countTick t (s.vgt.consecutive s.pos.rate t) = w) :
    exec (.vgtTick t .forward) s = .next { s with
      raised := s.raised.erase (.vgtTick t .forward)
        ++ if w.qualifies then [.onsetReport (w.start.getD t) t w.allowance] else []
      vgt := { w with run := if w.qualifies then .qualified else w.run, last := some (t, .forward) } } := by
  rw [← hw]; rfl

/-- A forward tick after which no run qualifies hands nothing on. -/
theorem execVgtTick_unqualified {s : State} {t : Nat} {w : Vgt} (hw : s.vgt.countTick t (s.vgt.consecutive s.pos.rate t) = w)
    (hq : ¬ w.qualifies = true) : exec (.vgtTick t .forward) s = .next { s with
      raised := s.raised.erase (.vgtTick t .forward), vgt := { w with last := some (t, .forward) } } := by
  rw [execVgtTick_forward hw, if_neg hq, if_neg hq, List.append_nil]

/-- A forward tick on which a run qualifies hands on its onset report. -/
theorem execVgtTick_qualified {s : State} {t : Nat} {w : Vgt} (hw : s.vgt.countTick t (s.vgt.consecutive s.pos.rate t) = w)
    (hq : w.qualifies = true) : exec (.vgtTick t .forward) s = .next { s with
      raised := s.raised.erase (.vgtTick t .forward) ++ [.onsetReport (w.start.getD t) t w.allowance]
      vgt := { w with run := .qualified, last := some (t, .forward) } } := by
  rw [execVgtTick_forward hw, if_pos hq, if_pos hq]

end Sys2Proof.Machine

open Sys2Proof Sys2Proof.Machine in
/-- Settles O55: a forward tick ends, begins, counts or keeps the run (`Vgt.countTick`), and hands on an onset report where the
run it leaves qualifies. -/
theorem voiceRunsAreCountedOnTicks : Obligations.VoiceRunsAreCountedOnTicks := by
  intro tick rising state dir s
  refine ⟨rfl, ⟨fun hlevel => ?silent, fun hlevel hfresh => ?begins, fun hlevel hrun hconsecutive onset hstart => ?counts,
    fun hlevel hrun hconsecutive => ?kept⟩, ?reverse, ?stateEvent⟩
  case silent =>
    exact execVgtTick_unqualified (Vgt.countTick_silent hlevel tick) fun h => nomatch ((Vgt.qualifies_iff _).mp h).1
  case begins =>
    have hw := Vgt.countTick_begins (consecutive := s.vgt.consecutive s.pos.rate tick) hlevel hfresh tick
    by_cases hq : s.vgt.qualify ≤ 1
    · rw [if_pos hq, if_pos hq]
      exact execVgtTick_qualified hw ((Vgt.qualifies_iff _).mpr ⟨rfl, hq⟩)
    · rw [if_neg hq, if_neg hq, List.append_nil]
      exact execVgtTick_unqualified hw fun h => hq ((Vgt.qualifies_iff _).mp h).2
  case counts =>
    have hw := Vgt.countTick_counts hlevel hrun tick
    rw [← show s.vgt.consecutive s.pos.rate tick = true from hconsecutive] at hw
    by_cases hq : s.vgt.qualify ≤ s.vgt.count + 1
    · rw [if_pos hq, execVgtTick_qualified hw ((Vgt.qualifies_iff _).mpr ⟨hrun, hq⟩)]
      simp only [hstart, Option.getD_some]
    · rw [if_neg hq]
      exact execVgtTick_unqualified hw fun h => hq ((Vgt.qualifies_iff _).mp h).2
  case kept =>
    have hw := Vgt.countTick_qualified hlevel hrun tick
    rw [← show s.vgt.consecutive s.pos.rate tick = true from hconsecutive] at hw
    exact execVgtTick_unqualified hw fun h => nomatch hrun.symm.trans ((Vgt.qualifies_iff _).mp h).1
  case reverse =>
    show Host.Outcome.next (State.post [] _) = _
    rw [State.post, List.append_nil]; rfl
  case stateEvent => cases state <;> rfl
end

section
/-! TAKE_CIRCLE and TAKE_RETIRE (R149, R155, R156): the checks of a take command in order, and the contexts that held a take
which leaves its cue's list. -/

namespace Sys2Proof.Machine

/-! ## The checks of a take command (R155) -/

theorem takeFields_eq (loop : BitVec 16) (take : Byte) : (loopOk loop && takeOk take) =
    decide (1 ≤ loop.toNat ∧ loop.toNat ≤ 9999 ∧ 1 ≤ take.toNat ∧ take.toNat ≤ 99) := by
  simp only [loopOk, takeOk, Bool.decide_and, Bool.and_assoc]

section
variable {i : Instr} {g : State → State × Reply} {s : State} {loop : BitVec 16} {take : Byte}

/-- The account of a take command by its checks in order, `P` being that of the command on the cue found. -/
theorem takeChecks_inOrder {fieldsOk : Bool} {f : Nat → State → State} {P : Nat × Cue → Prop} (hs : s.cst.lawful = true)
    (hg : g s = takeChecks fieldsOk loop take f s)
    (hrest : ∀ p, s.cue s.cst.editReel p.1 = some p.2 → g s = (f p.1 s, { result := .done }) → P p) :
    if !fieldsOk then Refused i .badField s (s.owner i g)
    else if s.editReel.state = .partly then Refused i .reelPartial s (s.owner i g)
    else (s.found loop = none → Refused i .noSuchCue s (s.owner i g)) ∧ ∀ p, s.found loop = some p →
      if p.2.protect then Refused i .protectedCue s (s.owner i g)
      else (p.2.take take.toNat = none → Refused i .noSuchTake s (s.owner i g)) ∧ ∀ x, p.2.take take.toNat = some x →
        if x.result = .opened then Refused i .passActive s (s.owner i g) else P p := by
  refine State.owner_check hg Iff.rfl fun _ hg => ?_
  refine State.owner_check hg Iff.rfl fun _ hg => ?_
  refine withCue_inOrder hs hg fun p hp hg => ?_
  refine State.owner_check hg Iff.rfl fun _ hg => ?_
  refine ⟨fun hnone => State.owner_refused (by rw [hg, hnone]), fun x hx => ?_⟩
  rw [hx] at hg
  exact State.owner_check hg Iff.rfl fun _ hg => hrest p (State.cue_of_found hs hp) hg

end

/-- TAKE_CIRCLE judges its on/off byte with its other fields. -/
theorem execTakeCircle_eq (loop : BitVec 16) (take value : Byte) (s : State) :
    exec (.takeCircle loop take value) s = .next (s.owner (.takeCircle loop take value)
      (takeChecks (loopOk loop && takeOk take && decide (value.toNat ≤ 1)) loop take fun slot s =>
        s.modCue s.cst.editReel slot (Cue.modTake take.toNat fun t => { t with circled := decide (value = 1) }))) := by
  refine congrArg (fun work => Host.Outcome.next (s.owner (.takeCircle loop take value) work)) (funext fun u => ?_)
  by_cases h : value.toNat ≤ 1
  · rw [onOffOf_of_le h, decide_eq_true h, Bool.and_true]
  · rw [onOffOf_of_gt (by omega), decide_eq_false h, Bool.and_false]; rfl

/-! ## A take that leaves its cue's list (R156) -/

theorem Cue.dropTake_eq (number : Nat) (c : Cue) :
    c.dropTake number = { c with takes := c.takes.filter fun x => decide (x.number ≠ number) } := by
  simp [Cue.dropTake, bne, beq_eq_decide]

theorem Ctx.dropTake_eq (r : Fin 8) (slot number : Nat) (c : Ctx) : c.dropTake r slot number =
    if c.reel = r ∧ c.slot = slot ∧ c.take = some number then { c with take := none } else c := by
  simp only [Ctx.dropTake, Ctx.serves, Bool.and_eq_true, beq_iff_eq, decide_eq_true_eq, and_assoc]

/-- Contexts rewritten one after the other. -/
def State.mapCtxs (f : Ctx → Ctx) (ks : List (Fin 4)) (s : State) : State :=
  ks.foldl (fun s k => s.setCtx k ((s.ctx k).map f)) s

theorem State.mapCtxs_rest (f : Ctx → Ctx) (ks : List (Fin 4)) (s : State) :
    s.mapCtxs f ks = { s with psc := { s.psc with ctxs := (s.mapCtxs f ks).psc.ctxs } } := by
  induction ks generalizing s with
  | nil => rfl
  | cons k ks ih => exact ih (s.setCtx k ((s.ctx k).map f))

theorem State.mapCtxs_ctx (f : Ctx → Ctx) {ks : List (Fin 4)} (hks : ks.Nodup) (s : State) (j : Fin 4) :
    (s.mapCtxs f ks).ctx j = if j ∈ ks then (s.ctx j).map f else s.ctx j := by
  induction ks generalizing s with
  | nil => rfl
  | cons k ks ih =>
    obtain ⟨hk, hks⟩ := List.nodup_cons.mp hks
    show ((s.setCtx k ((s.ctx k).map f)).mapCtxs f ks).ctx j = _
    rw [ih hks, State.ctx_setCtx]
    by_cases hj : j = k
    · simp [hj, hk]
    · simp [hj]

theorem State.retireTake_eq (slot number : Nat) (s : State) : s.retireTake slot number =
    (s.modCue s.cst.editReel slot (Cue.dropTake number)).mapCtxs (Ctx.dropTake s.cst.editReel slot number) allCtx := rfl

theorem State.retireTake_rest (slot number : Nat) (s : State) : s.retireTake slot number =
    { s.modCue s.cst.editReel slot (Cue.dropTake number) with
      psc := { s.psc with ctxs := (s.retireTake slot number).psc.ctxs } } := State.mapCtxs_rest _ _ _

theorem State.retireTake_ctx (slot number : Nat) (s : State) (k : Fin 4) :
    (s.retireTake slot number).ctx k = (s.ctx k).map (Ctx.dropTake s.cst.editReel slot number) :=
  (State.mapCtxs_ctx _ allCtx_nodup _ k).trans (if_pos (mem_allCtx k))

theorem State.retireTake_cst (slot number : Nat) (s : State) :
    (s.retireTake slot number).cst = (s.modCue s.cst.editReel slot (Cue.dropTake number)).cst := by
  rw [State.retireTake_rest]

/-- Whether one cue record alone changed is read off the Cue Store. -/
theorem OneCue.of_cst {r : Fin 8} {slot : Nat} {c : Cue} {s t u : State} (h : OneCue r slot c s u) (ht : t.cst = u.cst) :
    OneCue r slot c s t := by
  simpa only [OneCue, State.cue, State.reel, ht] using h

/-- The account of a command that retires a take of a live cue of the edit reel. -/
theorem State.owner_retireTake {i : Instr} {g : State → State × Reply} {s : State} {slot number : Nat} {c : Cue}
    (hc : s.cue s.cst.editReel slot = some c) (hg : g s = (s.retireTake slot number, { result := .done })) :
    (s.owner i g).apart =
        { s with
          cst := { s.cst with reels := (s.owner i g).cst.reels }, psc := { s.psc with ctxs := (s.owner i g).psc.ctxs } }.apart
      ∧ OneCue s.cst.editReel slot (c.dropTake number) s (s.owner i g)
      ∧ (∀ k : Fin 4, (s.owner i g).ctx k = (s.ctx k).map (Ctx.dropTake s.cst.editReel slot number))
      ∧ Answered i .done .nothing [] s (s.owner i g) := by
  have hone := (State.owner_modCue (i := i) (edit := Cue.dropTake number) (x := .done)
    (g := fun s => (s.modCue s.cst.editReel slot (Cue.dropTake number), { result := .done })) hc rfl).2.1
  have hrest := s.retireTake_rest slot number
  rw [State.owner_eq hg]
  refine ⟨?_, hone.of_cst ?_, fun k => ?_, State.answers_answered ?_⟩
  · rw [State.answers_apart, State.answers_cst, State.answers_psc, s.retireTake_cst]
    exact congrArg State.apart hrest
  · rw [State.answers_cst, s.retireTake_cst, State.owner_cst]
  · rw [State.answers_ctx, s.retireTake_ctx]
  · exact Noticed.of_lnk (by rw [hrest]; rfl) (by rw [hrest]; rfl) (by rw [hrest]; rfl)

end Sys2Proof.Machine

open Sys2Proof Sys2Proof.Machine in
/-- Settles O35: the checks in order (`takeChecks_inOrder`), then the cue record changed; a retirement clears the take of the
contexts too (`State.owner_retireTake`). -/
theorem takesAreCircledAndRetired : Obligations.TakesAreCircledAndRetired := by
  intro loop take value s hs
  refine ⟨⟨_, execTakeCircle_eq loop take value s, ?circle⟩, _, rfl, ?retire⟩
  case circle =>
    rw [takeFields_eq]
    refine takeChecks_inOrder hs rfl fun p hc hg => ?_
    obtain ⟨hrest, hone, hanswer⟩ := State.owner_modCue hc hg
    exact ⟨⟨hrest, hone⟩, hanswer⟩
  case retire =>
    dsimp only
    rw [Bool.and_true, ← takeFields_eq]
    refine takeChecks_inOrder hs rfl fun p hc hg => ?_
    obtain ⟨hrest, hone, hctx, hanswer⟩ := State.owner_retireTake hc hg
    refine ⟨⟨hrest, ?_, fun k => ?_⟩, hanswer⟩
    · rwa [Cue.dropTake_eq] at hone
    · rw [hctx, funext (Ctx.dropTake_eq _ _ _)]
end

section
/-! An onset report at the Cue Store (R160, R161): the capture window and the voice offset in whole numbers, and the takes that
receive one, context by context. -/

namespace Sys2Proof.Machine

/-! ## The capture window and the voice offset (R160) -/

theorem windowStart_int (i a : Nat) : (windowStart i a : Int) = if (i : Int) < a then 0 else ((i : Int) - a) * 80 := by
  unfold windowStart Config.ticksPerFrame
  split_ifs <;> omega

theorem inWindowOf_eq (v : CueVals) (q a : Nat) : inWindowOf v q a =
    decide ((windowStart v.inPt a : Int) ≤ q ∧ (q : Int) ≤ (v.outPt : Int) * 80 - 1) := by
  rw [inWindowOf, ← Bool.decide_and, decide_eq_decide]
  unfold Config.ticksPerFrame
  omega

theorem voiceOffset_eq (v : CueVals) (o q a : Nat) : voiceOffset v o q a =
    (if (o : Int) < windowStart v.inPt a ∨ q < o then (windowStart v.inPt a : Int) else o) - (v.inPt : Int) * 80 := by
  simp only [voiceOffset, Config.ticksPerFrame, Nat.cast_lt, Nat.cast_mul, Nat.cast_ofNat]

/-- An offset lies between the earliest window start and the out-point (R160). -/
theorem voiceOffset_bounds {v : CueVals} {o q a : Nat} (h : inWindowOf v q a = true) :
    -(a * 80 : Int) ≤ voiceOffset v o q a ∧ voiceOffset v o q a ≤ ((v.outPt : Int) - v.inPt) * 80 - 1 := by
  rw [inWindowOf_eq, decide_eq_true_iff] at h
  have hw := windowStart_int v.inPt a
  rw [voiceOffset_eq]
  split_ifs at hw ⊢ <;> omega

/-! ## One context -/

/-- A cue that an onset report has reached for the context that serves it: the OPEN take of the context receives the offset,
where it has none and the window holds the qualifying tick (R161). -/
def Cue.heard (o q a : Nat) (c : Ctx) (cue : Cue) : Cue :=
  { cue with takes := cue.takes.map fun x =>
      if c.take = some x.number ∧ x.result = .opened ∧ x.offset = none ∧ inWindowOf cue.vals q a then
        { x with offset := some (voiceOffset cue.vals o q a) }
      else x }

section
variable {o q a : Nat} {c : Ctx} {cue : Cue}

theorem Cue.heard_of_no_take (h : c.take = none) : cue.heard o q a c = cue := by
  simp [Cue.heard, h]

theorem Cue.heard_of_outside (h : ¬ inWindowOf cue.vals q a = true) : cue.heard o q a c = cue := by
  simp [Cue.heard, h]

theorem Cue.heard_of_take {number : Nat} (h : c.take = some number) (hw : inWindowOf cue.vals q a = true) :
    cue.heard o q a c = cue.modTake number (Take.hear (voiceOffset cue.vals o q a)) := by
  refine congrArg (fun l => { cue with takes := l }) (List.map_congr_left fun x _ => ?_)
  by_cases hn : x.number = number
  · simp [h, hw, hn, Take.hear]
  · simp [h, hn, Ne.symm hn]

end

section
variable (o q a : Nat)

/-- All that an onset report can do for one context: nothing, or change the record of the cue it serves. -/
theorem State.hearCtx_cases (s : State) (k : Fin 4) : s.hearCtx o q a k = s ∨
    ∃ c f, s.ctx k = some c ∧ s.hearCtx o q a k = s.modCue c.reel c.slot f := by
  unfold State.hearCtx
  split
  · exact .inl rfl
  · next c hc =>
    split
    · split
      · exact .inr ⟨c, _, hc, rfl⟩
      · exact .inl rfl
    · exact .inl rfl

/-- The cue of an ACTIVE context hears the report. -/
theorem State.hearCtx_cue_own {s : State} {k : Fin 4} {c : Ctx} {cue : Cue} (hk : s.ctx k = some c)
    (hcue : s.cue c.reel c.slot = some cue) : (s.hearCtx o q a k).cue c.reel c.slot = some (cue.heard o q a c) := by
  cases ht : c.take with
  | none =>
    simp only [State.hearCtx, hk, ht]
    rw [hcue, Cue.heard_of_no_take ht]
  | some number =>
    simp only [State.hearCtx, hk, ht, hcue]
    by_cases hw : inWindowOf cue.vals q a = true
    · rw [if_pos hw, State.cue_modCue, if_pos ⟨rfl, rfl⟩, hcue, Cue.heard_of_take ht hw]; rfl
    · rw [if_neg hw, hcue, Cue.heard_of_outside hw]

/-- A cue that the context does not serve hears nothing. -/
theorem State.hearCtx_cue_other {s : State} {k : Fin 4} {r : Fin 8} {slot : Nat}
    (h : ∀ c, s.ctx k = some c → ¬ (c.reel = r ∧ c.slot = slot)) : (s.hearCtx o q a k).cue r slot = s.cue r slot := by
  obtain he | ⟨c, f, hk, he⟩ := s.hearCtx_cases o q a k
  · rw [he]
  · rw [he, State.cue_modCue, if_neg fun e => h c hk ⟨e.1.symm, e.2.symm⟩]

end

/-! ## All contexts -/

/-- Of the whole state, cue records alone may have changed. -/
structure OnlyCues (s t : State) : Prop where
  rest : t = { s with cst := { s.cst with reels := t.cst.reels } }
  reels : ∀ r : Fin 8, { t.reel r with cues := [] } = { s.reel r with cues := [] }

theorem OnlyCues.refl (s : State) : OnlyCues s s := ⟨rfl, fun _ => rfl⟩

theorem OnlyCues.trans {s t u : State} (h : OnlyCues s t) (h' : OnlyCues t u) : OnlyCues s u where
  rest := by rw [h'.rest, h.rest]
  reels r := (h'.reels r).trans (h.reels r)

theorem OnlyCues.ctx {s t : State} (h : OnlyCues s t) (k : Fin 4) : t.ctx k = s.ctx k := by rw [h.rest]; rfl

theorem State.modCue_onlyCues (r : Fin 8) (slot : Nat) (f : Cue → Cue) (s : State) : OnlyCues s (s.modCue r slot f) where
  rest := rfl
  reels r' := by
    rw [State.modCue, State.reel_modReel]
    split
    · next e => subst e; rfl
    · rfl

section
variable (o q a : Nat)

theorem State.hearCtx_onlyCues (s : State) (k : Fin 4) : OnlyCues s (s.hearCtx o q a k) := by
  obtain he | ⟨c, f, -, he⟩ := s.hearCtx_cases o q a k
  · rw [he]; exact .refl s
  · rw [he]; exact s.modCue_onlyCues _ _ _

theorem State.hearCtxs_onlyCues (ks : List (Fin 4)) (s : State) : OnlyCues s (ks.foldl (State.hearCtx o q a) s) := by
  induction ks generalizing s with
  | nil => exact .refl s
  | cons k ks ih => exact (s.hearCtx_onlyCues o q a k).trans (ih _)

/-- A cue that none of the contexts serves is as it was. -/
theorem State.hearCtxs_cue_other {r : Fin 8} {slot : Nat} {ks : List (Fin 4)} {s : State}
    (h : ∀ k ∈ ks, ∀ c, s.ctx k = some c → ¬ (c.reel = r ∧ c.slot = slot)) :
    (ks.foldl (State.hearCtx o q a) s).cue r slot = s.cue r slot := by
  induction ks generalizing s with
  | nil => rfl
  | cons k ks ih =>
    refine (ih fun j hj c hc => ?_).trans (State.hearCtx_cue_other o q a (h k List.mem_cons_self))
    exact h j (List.mem_cons_of_mem k hj) c ((s.hearCtx_onlyCues o q a k).ctx j ▸ hc)

/-- A cue that one of the contexts serves hears the report once: no context before or after serves it. -/
theorem State.hearCtxs_cue_own {s : State} (hs : ∀ j k c d, s.ctx j = some c → s.ctx k = some d → c.slot = d.slot → j = k)
    {ks : List (Fin 4)} (hn : ks.Nodup) {k : Fin 4} (hk : k ∈ ks) {c : Ctx} {cue : Cue} (hc : s.ctx k = some c)
    (hcue : s.cue c.reel c.slot = some cue) :
    (ks.foldl (State.hearCtx o q a) s).cue c.reel c.slot = some (cue.heard o q a c) := by
  obtain ⟨before, after, rfl⟩ := List.append_of_mem hk
  obtain ⟨hafter, hbefore⟩ : k ∉ after ∧ k ∉ before := by
    have := List.nodup_middle.mp hn
    simpa [List.nodup_cons, and_comm] using (List.nodup_cons.mp this).1
  have hother {l : List (Fin 4)} (hl : k ∉ l) :
      ∀ j ∈ l, ∀ d, s.ctx j = some d → ¬ (d.reel = c.reel ∧ d.slot = c.slot) :=
    fun j hj d hd e => hl (hs j k d c hd hc e.2 ▸ hj)
  have hdone := s.hearCtxs_onlyCues o q a before
  rw [List.foldl_append, List.foldl_cons, State.hearCtxs_cue_other]
  · exact State.hearCtx_cue_own o q a ((hdone.ctx k).trans hc) ((State.hearCtxs_cue_other o q a (hother hbefore)).trans hcue)
  · intro j hj d hd
    exact hother hafter j hj d (((hdone.trans (State.hearCtx_onlyCues o q a _ k)).ctx j).symm.trans hd)

end

end Sys2Proof.Machine

open Sys2Proof Sys2Proof.Machine in
/-- Settles O56: each context's cue hears the report once, since lawful passes serve different cues
(`State.hearCtxs_cue_own`), and what a cue hears is the offset of R160. -/
theorem onsetsReachOpenTakes : Obligations.OnsetsReachOpenTakes := by
  rintro onset qualifying allowance s ⟨-, hdistinct, -⟩
  have honly := (s.taken (.onsetReport onset qualifying allowance)).hearCtxs_onlyCues onset qualifying allowance allCtx
  refine ⟨_, rfl, honly.rest, honly.reels, fun r slot hall => ?_, fun k c cue hc hcue => ?_⟩
  · exact State.hearCtxs_cue_other onset qualifying allowance fun k _ => hall k
  · have hown := State.hearCtxs_cue_own (s := s.taken (.onsetReport onset qualifying allowance)) onset qualifying allowance
      hdistinct allCtx_nodup (mem_allCtx k) hc hcue
    have hbounds := voiceOffset_bounds (v := cue.vals) (o := onset) (q := qualifying) (a := allowance)
    rw [voiceOffset_eq, inWindowOf_eq, windowStart_int] at hbounds
    rw [Cue.heard, voiceOffset_eq, inWindowOf_eq, windowStart_int] at hown
    exact ⟨hown, hbounds⟩
end

section
/-! What each operation of the Command Link makes of its law (R166, R169, R171, R173). -/

namespace Sys2Proof.Machine

/-! ## The law, clause by clause -/

theorem Link.lawful_iff (l : Link) : l.lawful = true ↔ l.rx.lawful = true ∧ l.notices.length ≤ 24 ∧ l.ownAnswers ≤ 3
    ∧ l.placesHeld.countP Place.isOwner = (if l.held.isSome then 1 else 0)
    ∧ l.placesHeld.countP Place.isEmpty = if l.held.any (fun h => !h.taken) then 1 else 0 := by
  simp only [Link.lawful, Bool.and_eq_true, decide_eq_true_eq, and_assoc]

/-- A change of the link that keeps the receiver, the held command and the answers held, and lengthens neither list beyond
its bound. -/
theorem Link.lawful_of_intake {l m : Link} (h : l.lawful = true) (hintake : m.intake = l.intake)
    (hnotices : m.notices.length ≤ 24) (hown : m.ownAnswers ≤ l.ownAnswers) : m.lawful = true := by
  obtain ⟨hrx, -, hthree, howner, hempty⟩ := (Link.lawful_iff l).mp h
  obtain ⟨erx, eheld, eplaces⟩ : m.rx = l.rx ∧ m.held = l.held ∧ m.placesHeld = l.placesHeld := by
    simpa [Link.intake] using hintake
  exact (Link.lawful_iff m).mpr ⟨erx ▸ hrx, hnotices, Nat.le_trans hown hthree, by rw [eplaces, eheld, howner],
    by rw [eplaces, eheld, hempty]⟩

theorem Link.lawful_reset : Link.reset.lawful = true := rfl

/-! ## The transmitter and the notices -/

theorem Link.choose_lawful {l : Link} (h : l.lawful = true) : l.choose.lawful = true :=
  Link.lawful_of_intake h (by simp [Link.intake])
    (Nat.le_trans l.choose_notices_le ((Link.lawful_iff l).mp h).2.1) l.choose_ownAnswers_le

theorem Link.join_lawful (n : Notice) {l : Link} (h : l.lawful = true) : (l.join n).lawful = true := by
  obtain ⟨-, hnotices, -⟩ := (Link.lawful_iff l).mp h
  refine Link.lawful_of_intake h (by simp [Link.intake]) ?_ ?_
  · unfold Link.join
    split
    · next hroom => simpa [Config.noticeRoom] using Nat.succ_le_of_lt hroom
    · exact hnotices
  · unfold Link.join
    split <;> exact Nat.le_refl _

theorem State.transmit_lawful {s : State} (h : s.lnk.lawful = true) : s.transmit.lnk.lawful = true := by
  unfold State.transmit
  split
  · exact h
  · exact Link.choose_lawful h

theorem State.raise_lawful (n : Notice) {s : State} (h : s.lnk.lawful = true) : (s.raise n).lnk.lawful = true :=
  State.transmit_lawful (Link.join_lawful n h)

/-! ## The receiver -/

theorem Link.setRx_lawful {rx : Rx} {l : Link} (h : l.lawful = true) (hrx : rx.lawful = true) :
    ({ l with rx := rx } : Link).lawful = true := by
  obtain ⟨-, hrest⟩ := (Link.lawful_iff l).mp h
  exact (Link.lawful_iff _).mpr ⟨hrx, hrest⟩

/-! ## Places -/

theorem Link.append_placesHeld (ps : List Place) (l : Link) :
    ({ l with answers := l.answers ++ ps } : Link).placesHeld = l.placesHeld ++ ps := by
  obtain ⟨rx, held, answers, notices, wire, overrun⟩ := l
  unfold Link.placesHeld
  dsimp only
  split <;> rfl

theorem Link.place_room (a : LinkAnswer) {l : Link} (h : l.ownAnswers < 3) :
    l.place a = { l with answers := l.answers ++ [.link a] } := if_pos h

theorem Link.place_full (a : LinkAnswer) {l : Link} (h : ¬ l.ownAnswers < 3) : l.place a = { l with overrun := true } :=
  if_neg h

theorem Link.place_lawful (a : LinkAnswer) {l : Link} (h : l.lawful = true) : (l.place a).lawful = true := by
  by_cases hroom : l.ownAnswers < 3
  · obtain ⟨hrx, hnotices, -, howner, hempty⟩ := (Link.lawful_iff l).mp h
    rw [Link.place_room a hroom]
    refine (Link.lawful_iff _).mpr ⟨hrx, hnotices, ?_, ?_, ?_⟩
    · simpa [Link.ownAnswers] using Nat.succ_le_of_lt hroom
    · rw [Link.append_placesHeld, List.countP_append, howner]; rfl
    · rw [Link.append_placesHeld, List.countP_append, hempty]; rfl
  · rw [Link.place_full a hroom]
    exact h

theorem Link.hold_lawful (body : List Byte) {l : Link} (h : l.lawful = true) (hnone : l.held = none) :
    (l.hold body).lawful = true := by
  obtain ⟨hrx, hnotices, hthree, howner, hempty⟩ := (Link.lawful_iff l).mp h
  refine (Link.lawful_iff _).mpr ⟨hrx, hnotices, ?_, ?_, ?_⟩
  · simpa [Link.ownAnswers, Link.hold] using hthree
  · rw [Link.hold_placesHeld, List.countP_append, howner, hnone]; rfl
  · rw [Link.hold_placesHeld, List.countP_append, hempty, hnone]; rfl

theorem countP_owner_fillPlace (a : Answer) (ps : List Place) :
    (fillPlace a ps).countP Place.isOwner = ps.countP Place.isOwner := by
  fun_induction fillPlace a ps <;> simp_all [Place.isOwner, List.countP_cons]

/-- The answer of an owner fills one empty place. -/
theorem countP_empty_fillPlace (a : Answer) (ps : List Place) :
    (fillPlace a ps).countP Place.isEmpty = ps.countP Place.isEmpty - 1 := by
  fun_induction fillPlace a ps <;> simp_all [Place.isEmpty, List.countP_cons]

theorem Link.fill_ownAnswers (a : Answer) (l : Link) : (l.fill a).ownAnswers = l.ownAnswers := by
  simp only [Link.ownAnswers, Link.fill]
  generalize l.answers = ps
  fun_induction fillPlace a ps <;> simp_all

/-- The owner of the command that is held and not yet taken fills its place (R170, R171). -/
theorem Link.fill_lawful (a : Answer) {l : Link} {x : Held} (h : l.lawful = true) (hheld : l.held = some x)
    (htaken : x.taken = false) : (l.fill a).lawful = true := by
  obtain ⟨hrx, hnotices, hthree, howner, hempty⟩ := (Link.lawful_iff l).mp h
  refine (Link.lawful_iff _).mpr ⟨hrx, hnotices, l.fill_ownAnswers a ▸ hthree, ?_, ?_⟩
  · rw [Link.fill_placesHeld, countP_owner_fillPlace, howner]
    simp [Link.fill, hheld]
  · rw [Link.fill_placesHeld, countP_empty_fillPlace, hempty]
    simp [Link.fill, hheld, htaken]

/-- The tie of an answer and a notice leaves the answers of the link's own, and puts a notice back only where there is
room for it (log entry 3). -/
theorem State.settleTie_lawful (wasIdle : Bool) {s : State} (h : s.lnk.lawful = true) :
    (s.settleTie wasIdle).lnk.lawful = true := by
  obtain ⟨-, hplaces, hheld, hrx, -, -⟩ := s.settleTie_keeps wasIdle
  obtain ⟨-, hnotices, -⟩ := (Link.lawful_iff _).mp h
  refine Link.lawful_of_intake h (by simp [Link.intake, hplaces, hheld, hrx]) ?_ ?_
  · unfold State.settleTie
    split
    · dsimp only
      split
      · next hroom => simpa [Config.noticeRoom] using Nat.succ_le_of_lt (of_decide_eq_true (Bool.and_eq_true_iff.mp hroom).2)
      · exact hnotices
    · exact hnotices
  · unfold State.settleTie
    split
    · next hanswers =>
      dsimp only
      split
      · simp [Link.ownAnswers, hanswers]
      · exact Nat.le_refl _
    · exact Nat.le_refl _

/-- A message that has ended leaves LINK TX, and an owner's answer leaves with the command it answers (R169). -/
theorem Link.ended_lawful {l : Link} (h : l.lawful = true) : l.ended.lawful = true := by
  obtain ⟨hrx, hnotices, hthree, howner, hempty⟩ := (Link.lawful_iff l).mp h
  unfold Link.ended
  split
  · next a hwire =>
    rw [Link.placesHeld, hwire] at howner hempty
    have hone : l.answers.countP Place.isOwner = 0 := by
      rw [List.countP_cons] at howner
      simp only [Place.isOwner, if_true] at howner
      split at howner <;> omega
    refine (Link.lawful_iff _).mpr ⟨hrx, hnotices, hthree, hone, ?_⟩
    refine List.countP_eq_zero.mpr fun p hp he => List.countP_eq_zero.mp hone p hp ?_
    cases p with
    | owner => rfl
    | link => cases he
  · next a hwire =>
    rw [Link.placesHeld, hwire] at howner hempty
    exact (Link.lawful_iff _).mpr ⟨hrx, hnotices, hthree, howner, hempty⟩
  · next n hwire =>
    rw [Link.placesHeld, hwire] at howner hempty
    exact (Link.lawful_iff _).mpr ⟨hrx, hnotices, hthree, howner, hempty⟩
  · exact h

end Sys2Proof.Machine
end

section
/-! The work of the blocks, as the link and the queue of commands see it: whatever a block does, it moves nothing of the link
but to raise notices (R173), and it leaves the commands that wait. -/

namespace Sys2Proof.Machine

/-- Work outside the link, from `s` to `t`: of the link it leaves the receiver, the held command, the answers and the law, and it
leaves the queue of waiting commands. -/
structure Works (s t : State) : Prop where
  pending : t.pending = s.pending
  intake : t.lnk.intake = s.lnk.intake
  lawful : s.lnk.lawful = true → t.lnk.lawful = true

/-! ## Work put together -/

theorem Works.of_lnk {s t : State} (hpending : t.pending = s.pending) (hlnk : t.lnk = s.lnk) : Works s t :=
  ⟨hpending, congrArg Link.intake hlnk, fun h => hlnk ▸ h⟩

theorem Works.refl (s : State) : Works s s := .of_lnk rfl rfl

theorem Works.trans {s t u : State} (h : Works s t) (h' : Works t u) : Works s u :=
  ⟨h'.pending.trans h.pending, h'.intake.trans h.intake, fun hs => h'.lawful (h.lawful hs)⟩

/-- Work followed by a change outside the link and the queue. -/
theorem Works.rest {s t u : State} (h : Works s t) (hpending : u.pending = t.pending) (hlnk : u.lnk = t.lnk) : Works s u :=
  h.trans (.of_lnk hpending hlnk)

theorem State.raise_works (n : Notice) (s : State) : Works s (s.raise n) :=
  ⟨s.raise_pending n, s.raise_intake n, State.raise_lawful n⟩

/-- Work after a change outside the link and the queue. -/
theorem Works.after {s t u : State} (h : Works t u) (hpending : t.pending = s.pending) (hlnk : t.lnk = s.lnk) : Works s u :=
  Works.trans (.of_lnk hpending hlnk) h

/-- A change outside the link and the queue, then a notice. -/
theorem Works.raised {s t : State} {n : Notice} (hpending : t.pending = s.pending) (hlnk : t.lnk = s.lnk) :
    Works s (t.raise n) :=
  (t.raise_works n).after hpending hlnk

theorem Works.ite {c : Prop} [Decidable c] {s t u : State} (ht : Works s t) (hu : Works s u) : Works s (if c then t else u) := by
  split
  · exact ht
  · exact hu

/-- Work done for each member of a list. -/
theorem Works.foldl {α : Type} {f : State → α → State} (hf : ∀ s a, Works s (f s a)) (l : List α) (s : State) :
    Works s (l.foldl f s) := by
  induction l generalizing s with
  | nil => exact .refl s
  | cons a l ih => exact (hf s a).trans (ih _)

/-- An event of an ordered way, taken in turn or not (R119, R133, R144). -/
theorem State.takeInTurn_works (i : Instr) {f : State → State} (hf : ∀ x, Works x (f x)) (s : State) :
    Works s (s.takeInTurn i f) := by
  obtain ⟨-, h⟩ | ⟨-, h⟩ := s.takeInTurn_cases i f
  · rw [h]; exact (hf (s.taken i)).after rfl rfl
  · rw [h]; exact .refl s

/-! ## The end of a pass -/

theorem State.settleCue_works (completed : Bool) (r : Fin 8) (slot : Nat) (s : State) : Works s (s.settleCue completed r slot) := by
  refine .of_lnk ?_ (s.settleCue_lnk completed r slot)
  unfold State.settleCue
  split
  · rfl
  · simp

theorem State.abortTake_works (c : Ctx) (s : State) : Works s (s.abortTake c) := by
  refine .of_lnk ?_ (s.abortTake_lnk c)
  unfold State.abortTake
  split <;> rfl

theorem State.switchPlay_works (r : Fin 8) (s : State) : Works s (s.switchPlay r) := .raised rfl rfl

theorem State.applyPendingPlay_works (s : State) : Works s s.applyPendingPlay := by
  unfold State.applyPendingPlay
  split
  · exact s.switchPlay_works _
  · exact .refl s

/-- A pass ends: PASS_END, the context FREE, a pending play reel applied (R101, R104). -/
theorem Works.ended {s t : State} (h : Works s t) (k : Fin 4) (c : Ctx) (outcome : PassOutcome) (take : Option Take) :
    Works s ((t.raiseEnd k c outcome take).freeCtx k).applyPendingPlay :=
  have hfreed : Works s ((t.raiseEnd k c outcome take).freeCtx k) := (h.trans (t.raise_works _)).rest rfl rfl
  hfreed.trans (State.applyPendingPlay_works _)

theorem State.abortCtx_works (cause : AbortCause) (k : Fin 4) (s : State) : Works s (s.abortCtx cause k) := by
  unfold State.abortCtx
  split
  · exact .refl s
  · next c _ =>
    have htake := (State.abortTake_works c (s.post [.release k c.loop])).after (s := s) rfl rfl
    exact Works.ended (htake.trans (State.settleCue_works (decide (c.phase = .tail)) c.reel c.slot _)) k c _ _

theorem State.retireCtx_works (k : Fin 4) (s : State) : Works s (s.retireCtx k) := by
  unfold State.retireCtx
  split
  · exact .refl s
  · next c _ => exact Works.ended (.of_lnk (s := s) (t := s.post [.release k c.loop]) rfl rfl) k c _ _

theorem State.closeCtx_works (k : Fin 4) (s : State) : Works s (s.closeCtx k) := by
  unfold State.closeCtx
  split
  · exact .refl s
  · next c _ => exact Works.ended (s.settleCue_works true c.reel c.slot) k c _ _

theorem State.abortAll_works (cause : AbortCause) (ks : List (Fin 4)) (s : State) : Works s (s.abortAll cause ks) :=
  Works.foldl (fun s k => s.abortCtx_works cause k) ks s

/-! ## The work of a frame edge (R91) -/

theorem State.testCue_works (tell : Cue → Option Notice) (s : State) (slot : Nat) : Works s (s.testCue tell slot) := by
  unfold State.testCue
  split
  · exact .refl s
  · dsimp only
    split
    · exact .of_lnk rfl rfl
    · exact .raised rfl rfl

theorem State.pointerWork_works (e : FrameEdge) (s : State) : Works s (s.pointerWork e) := by
  have hlate (u : State) (slot : Nat) : Works u (u.testLate e.n slot) := u.testLate_eq e.n slot ▸ u.testCue_works _ slot
  have hpassed (u : State) (slot : Nat) : Works u (u.testPassed slot) := u.testPassed_eq slot ▸ u.testCue_works _ slot
  unfold State.pointerWork
  split
  · exact (Works.foldl hlate _ _).after rfl rfl
  · split
    · unfold State.movePointer
      split
      · exact (Works.foldl hpassed _ _).after rfl rfl
      · exact .of_lnk rfl rfl
    · exact .refl s

theorem State.reserve_works (k : Fin 4) (c : Ctx) (cue : Cue) (s : State) : Works s (s.reserve k c cue) :=
  .ite (.of_lnk rfl rfl) (.raised rfl rfl)

theorem State.closeTake_works (c : Ctx) (v : CueVals) (s : State) : Works s (State.closeTake c v s) := by
  unfold State.closeTake
  split
  · exact .refl s
  · exact .of_lnk rfl rfl

theorem State.recordWork_works (k : Fin 4) (c : Ctx) (cue : Cue) (n : Nat) (s : State) : Works s (State.recordWork k c cue n s) := by
  have hout : Works s (if n + 1 = cue.vals.outPt then s.stageOut k c cue.vals else s) := .ite (.of_lnk rfl rfl) (.refl s)
  unfold State.recordWork
  split
  · exact .refl s
  · exact .ite (s.reserve_works k c cue) (.ite (hout.trans (State.closeTake_works _ _ _)) hout)

theorem State.phaseWork_works (n : Nat) (s : State) (k : Fin 4) : Works s (s.phaseWork n k) := by
  have hset (c : Option Ctx) : Works s (s.setCtx k c) := .of_lnk rfl rfl
  unfold State.phaseWork
  split
  · exact .refl s
  · split
    · exact .refl s
    · exact .ite (((hset _).trans (State.recordWork_works _ _ _ _ _)).trans (State.closeCtx_works k _))
        ((hset _).trans (State.recordWork_works _ _ _ _ _))

theorem State.enter_works (n : Nat) (k : Fin 4) (slot : Nat) (kind : ArmKind) (cue : Cue) (s : State) :
    Works s (s.enter n k slot kind cue) := by
  have hbegin {u : State} {x : Notice} {e : List Instr} (hpending : u.pending = s.pending) (hlnk : u.lnk = s.lnk) :
      Works s ((u.raise x).post e) := (Works.raised hpending hlnk).rest rfl rfl
  unfold State.enter
  refine .ite (Works.trans ?_ (State.reserve_works _ _ _ _)) ?_ <;> exact hbegin rfl rfl

theorem State.serve_works (n : Nat) (served : List Nat) (s : State) (slot : Nat) : Works s (s.serve n served slot) := by
  unfold State.serve
  split
  · exact .refl s
  · split
    · split
      · exact .ite (.refl s) (s.enter_works n _ slot _ _)
      · exact .of_lnk rfl rfl
    · exact .refl s

theorem State.edgeRuns_works (n : Nat) (s : State) : Works s (s.edgeRuns n) := by
  have hphases : Works s (s.edgePhases n) := Works.foldl (State.phaseWork_works n) allCtx s
  exact .ite (hphases.rest rfl rfl) (hphases.trans (.ite (Works.foldl (State.serve_works n _) _ _) (.refl _)))

theorem State.edgeFirst_works (e : FrameEdge) (s : State) : Works s (s.edgeFirst e).1 := by
  have haborts (u : State) : Works u (u.edgeAborts e) := .ite (.refl u) (u.abortAll_works _ _)
  exact ((haborts { s with psc := { s.psc with refind := false } }).after (s := s) rfl rfl).rest rfl rfl

theorem State.edgeWork_works (e : FrameEdge) (s : State) : Works s (s.edgeWork e) := by
  have hfirst := s.edgeFirst_works e
  have hpointer := (hfirst.trans (State.pointerWork_works e _)).rest
    (u := ((s.edgeFirst e).1.pointerWork e).markWhere (s.edgeFirst e).2) rfl rfl
  exact .ite (hfirst.rest rfl rfl) (.ite (hpointer.trans (State.edgeRuns_works _ _)) hpointer)

/-! ## Reports -/

theorem State.applyReport_works (r : PunchReport) (s : State) : Works s (s.applyReport r) := by
  unfold State.applyReport
  split
  · exact .ite (.of_lnk rfl rfl) (.refl s)
  · exact .refl s

theorem State.guardCtx_works (s : State) (k : Fin 4) : Works s (s.guardCtx k) := by
  unfold State.guardCtx
  split
  · exact .refl s
  · dsimp only
    split <;> exact .of_lnk rfl rfl

theorem State.draw_works (r : LaneReport) (s : State) : Works s (s.draw r) := .ite (.refl s) (.of_lnk rfl rfl)

theorem OnlyCues.works {s t : State} (h : OnlyCues s t) : Works s t :=
  .of_lnk (by rw [h.rest]) (by rw [h.rest])

/-! ## The Punch Unit -/

theorem State.transfer_works (j : Fin 4) (e : Staged) (s : State) : Works s (s.transfer j e) := by
  unfold State.transfer
  split <;> exact .raised rfl rfl

theorem State.transferManual_works (e : ManualEntry) (s : State) : Works s (s.transferManual e) := by
  unfold State.transferManual
  dsimp only
  split <;> exact .raised rfl rfl

theorem State.transferDue_works (a : Action) (n : Nat) (s : State) (j : Fin 4) : Works s (s.transferDue a n j) := by
  unfold State.transferDue
  split
  · exact .ite ((State.transfer_works j _ _).after rfl rfl) (.refl s)
  · exact .refl s

theorem State.transferStagedManual_works (s : State) : Works s s.transferStagedManual := by
  unfold State.transferStagedManual
  split
  · exact (State.transferManual_works _ _).after rfl rfl
  · exact .refl s

theorem State.stageEntry_works (j : Fin 4) (e : Staged) (s : State) : Works s (s.stageEntry j e) := by
  have hplace (u : State) : Works u (u.placeEntry j e) := .ite (u.transfer_works j e) (.of_lnk rfl rfl)
  unfold State.stageEntry
  split
  · next old _ => exact ((State.transfer_works j old (s.setStaged j none)).trans (hplace _)).after rfl rfl
  · exact hplace s

theorem State.releaseLines_works (j : Fin 4) (s : State) : Works s (s.releaseLines j) :=
  .ite (.of_lnk rfl rfl) (.raised rfl rfl)

theorem State.punchManual_works (e : ManualEntry) (s : State) : Works s (s.punchManual e) := by
  unfold State.punchManual
  split
  · exact .of_lnk rfl rfl
  · exact .of_lnk rfl rfl
  · exact s.transferManual_works e
  · exact s.transferManual_works e

theorem State.tripGuard_works (s : State) : Works s s.tripGuard := .raised rfl rfl

/-! ## The Position Reader -/

theorem State.enterPos_works (p : Pos) (s : State) : Works s (s.enterPos p) := .raised rfl rfl

theorem State.edgePos_works (p : Pos) (jump resume : Bool) (s : State) : Works s (s.edgePos p jump resume) := .of_lnk rfl rfl

theorem State.enterEdge_works (p : Pos) (jump resume : Bool) (s : State) : Works s ((s.enterPos p).edgePos p jump resume) :=
  (s.enterPos_works p).trans (State.edgePos_works _ _ _ _)

theorem State.missing_works (s : State) : Works s s.missing := .ite (s.enterPos_works _) (s.enterEdge_works _ _ _)

theorem State.testAgreement_works (f : LtcFrame) (s : State) : Works s (s.testAgreement f) :=
  .ite (.of_lnk rfl rfl) (.ite (.refl s) (.raised rfl rfl))

theorem State.takeFrame_works (f : LtcFrame) (s : State) : Works s (s.takeFrame f) := by
  unfold State.takeFrame
  dsimp only
  split
  · exact s.enterEdge_works _ _ _
  · exact s.enterEdge_works _ _ _
  · exact s.edgePos_works _ _ _
  · exact s.missing_works
  · exact .ite (s.enterPos_works _) (s.enterEdge_works _ _ _)
  all_goals exact .refl s

/-! ## The Conform Unit and the Cue Store -/

theorem State.endConform_works (op : Operation) (s : State) : Works s (s.endConform op) :=
  .raised (State.markIfPlay_pending _ _) (State.markIfPlay_lnk _ _)

theorem State.shiftAt_works (op : Operation) (slot : Nat) (s : State) : Works s (s.shiftAt op slot) :=
  .ite ((State.endConform_works op _).after rfl rfl) (.of_lnk rfl rfl)

theorem State.copyAt_works (op : Operation) (source : Fin 8) (c : Cue) (slot : Nat) (s : State) :
    Works s (s.copyAt op source c slot) := by
  have hcreate : Works s ((s.modReel op.target (Reel.create slot (newCue c.loop (c.vals.moved op.delta)))).markIfPlay op.target) :=
    .of_lnk (State.markIfPlay_pending _ _) (State.markIfPlay_lnk _ _)
  refine .ite (Works.trans ?_ (State.endConform_works op _)) ?_ <;> exact hcreate.rest rfl rfl

theorem State.clearReel_works (r : Fin 8) (s : State) : Works s (s.clearReel r) := by
  refine .of_lnk ?_ (s.clearReel_lnk r)
  have hrelease (c : Option ConformRecord) (u : State) : (u.releaseSource c).pending = u.pending := by
    unfold State.releaseSource; split <;> rfl
  unfold State.clearReel
  dsimp only
  split <;> simp [hrelease]

theorem State.retireCue_works (slot : Nat) (c : Cue) (s : State) : Works s (s.retireCue slot c) := by
  have hmark (u : State) (r : Fin 8) (f : Reel → Reel) : Works u ((u.modReel r f).markIfPlay r) :=
    .of_lnk (State.markIfPlay_pending _ _) (State.markIfPlay_lnk _ _)
  unfold State.retireCue
  refine Works.trans ?_ (hmark _ _ _)
  split
  · split
    · exact s.retireCtx_works _
    · exact .refl s
  · exact .refl s

theorem State.retireTake_works (slot number : Nat) (s : State) : Works s (s.retireTake slot number) := by
  rw [State.retireTake_rest]
  exact .of_lnk rfl rfl

end Sys2Proof.Machine
end

section
/-! Every command and event: it goes on to a next state, it leaves the queue of waiting commands, and it keeps the law of the
Command Link (R166, R169, R171 to R173). -/

namespace Sys2Proof.Machine

/-- From one state to the other the queue of waiting commands stands and the law of the link is kept. -/
structure LinkKept (s t : State) : Prop where
  pending : t.pending = s.pending
  lawful : s.lnk.lawful = true → t.lnk.lawful = true

theorem Works.kept {s t : State} (h : Works s t) : LinkKept s t := ⟨h.pending, h.lawful⟩

theorem LinkKept.refl (s : State) : LinkKept s s := (Works.refl s).kept

theorem LinkKept.ite {c : Prop} [Decidable c] {s t u : State} (ht : LinkKept s t) (hu : LinkKept s u) :
    LinkKept s (if c then t else u) := by
  split
  · exact ht
  · exact hu

/-! ## The event of an owner (R170) -/

/-- The command that waits for its owner is held and not yet taken. -/
theorem Link.held_of_waitingCommand {l : Link} {i : Instr} (h : l.waitingCommand = some i) :
    ∃ x, l.held = some x ∧ x.taken = false := by
  obtain ⟨x, hx, hi⟩ := Option.bind_eq_some_iff.mp h
  refine ⟨x, hx, ?_⟩
  cases ht : x.taken with
  | false => rfl
  | true => simp [ht] at hi

theorem State.deliver_lawful (i : Instr) (a : Answer) {s t : State} (h : Works s t) (hs : s.lnk.lawful = true) :
    (s.deliver i a t).lnk.lawful = true := by
  have ht := h.lawful hs
  have hheld : t.lnk.held = s.lnk.held := congrArg (fun x => x.2.1) h.intake
  have hfill : ∀ l : Link, (l.fill a).lawful = true →
      (State.settleTie s.lnk.wire.isNone (State.transmit { t with lastAnswer := some a, lnk := l.fill a })).lnk.lawful = true :=
    fun _ hl => State.settleTie_lawful _ (State.transmit_lawful hl)
  unfold State.deliver
  dsimp only
  split
  · next hcarries =>
    refine hfill _ ?_
    cases hx : s.lnk.held with
    | none => exact Link.fill_lawful a (Link.hold_lawful (bodyOf i) ht (hheld.trans hx)) rfl rfl
    | some x =>
      have hwaits : s.board.resetLow = false ∧ s.lnk.waitingCommand = some i := by simpa [State.carries, hx] using hcarries
      obtain ⟨y, hy, htaken⟩ := Link.held_of_waitingCommand hwaits.2
      exact Link.fill_lawful a ht (hheld.trans hy) htaken
  · exact ht

theorem LinkKept.owner {i : Instr} {f : State → State × Reply} {s : State} (h : Works s (f s).1) : LinkKept s (s.owner i f) where
  pending := (State.fields_of_apart (s.owner_apart i f)).1.trans h.pending
  lawful := State.deliver_lawful i _ h

/-! ## The checks of the commands -/

section
variable {s : State}

theorem Works.refusal (r : Result) : Works s (refuse r s).1 := .refl s

/-- One more check before the work. -/
theorem Works.check {p : Prop} [Decidable p] {r : Result} {x : State × Reply} (h : Works s x.1) :
    Works s (if p then refuse r s else x).1 := by
  split
  · exact .refl s
  · exact h

theorem Works.checked {p : Prop} [Decidable p] {r : Result} {x : State × Reply} (h : Works s x.1) :
    Works s (if p then x else refuse r s).1 := by
  split
  · exact h
  · exact .refl s

theorem withReel_works {code : Byte} {f : Fin 8 → State → State × Reply} (h : ∀ r, Works s (f r s).1) :
    Works s (withReel code f s).1 := by
  unfold withReel
  split
  · exact .refl s
  · exact h _

theorem withForm_works {form : Option UndefinedForm} {f : State → State × Reply} (h : Works s (f s).1) :
    Works s (withForm form f s).1 := by
  unfold withForm
  split
  · exact .refl s
  · exact h

theorem cueChecks_works {cmd : CueCommand} {ok : Bool} {f : State → State × Reply} (h : Works s (f s).1) :
    Works s (cueChecks cmd ok f s).1 := by
  obtain ⟨r, hr⟩ | hgo := cueChecks_cases cmd ok f s
  · rw [hr]; exact .refl s
  · rw [hgo]; exact h

theorem withCue_works {loop : BitVec 16} {f : Nat → Cue → State → State × Reply} (h : ∀ slot c, Works s (f slot c s).1) :
    Works s (withCue loop f s).1 := by
  obtain ⟨r, hr⟩ | ⟨slot, c, -, hgo⟩ := withCue_cases loop f s
  · rw [hr]; exact .refl s
  · rw [hgo]; exact h slot c

theorem takeChecks_works {ok : Bool} {loop : BitVec 16} {take : Byte} {f : Nat → State → State} (h : ∀ slot, Works s (f slot s)) :
    Works s (takeChecks ok loop take f s).1 := by
  refine .check <| .check <| withCue_works fun slot c => .check ?_
  split
  · exact .refl s
  · exact .check (h slot)

end

/-! ## The work of the owners -/

theorem State.selectPlay_works (r : Fin 8) (s : State) : Works s (s.selectPlay r).1 := by
  unfold State.selectPlay
  split <;> split
  · exact .refl s
  · exact s.switchPlay_works r
  · exact .of_lnk rfl rfl
  · exact .of_lnk rfl rfl

theorem State.startShift_works (delta : Int) (s : State) : Works s (s.startShift delta).1 := by
  refine .check <| .check <| .check <| .check <| .check ?_
  split
  · exact .refl s
  · exact .of_lnk (State.markIfPlay_pending _ _) (State.markIfPlay_lnk _ _)

theorem State.startCopy_works (source dest : Fin 8) (delta : Int) (s : State) : Works s (s.startCopy source dest delta).1 := by
  refine .check <| .check <| .check <| .check <| .check <| .check ?_
  split
  · exact .refl s
  · exact .of_lnk rfl rfl

theorem State.resume_works (s : State) : Works s s.resume.1 := by
  refine .check <| .check ?_
  split
  · exact .of_lnk rfl rfl
  · exact .refl s

theorem State.writeChecked_works (loop : Nat) (f : CueFields) (mode : Mode) (s : State) :
    Works s (s.writeChecked loop f mode).1 := by
  unfold State.writeChecked
  split
  · refine .checked <| .check <| .check ?_
    split
    · exact .refl s
    · exact .of_lnk (State.markIfPlay_pending _ _) (State.markIfPlay_lnk _ _)
  · exact .refl s

theorem State.amendChecked_works (loop : BitVec 16) (f : AmendFields) (mode : Option Mode) (s : State) :
    Works s (s.amendChecked loop f mode).1 := by
  unfold State.amendChecked
  split
  · refine withCue_works fun slot c => .check <| .check <| .check ?_
    unfold State.amendCue
    split
    · exact .of_lnk rfl rfl
    · exact .of_lnk (by simp) (by simp)
  · exact .refl s

theorem State.armFound_works (kind : ArmKind) (slot : Nat) (c : Cue) (s : State) : Works s (s.armFound kind slot c).1 := by
  refine .check ?_
  split
  · exact .refl s
  · exact .of_lnk rfl rfl

theorem State.disarmFound_works (slot : Nat) (c : Cue) (s : State) : Works s (s.disarmFound slot c).1 := by
  unfold State.disarmFound
  cases c.state <;> exact .of_lnk rfl rfl

/-! ## The link -/

/-- The link's own work: it leaves the queue, and each operation keeps its law. -/
theorem LinkKept.of_link {s : State} {l : Link} (h : s.lnk.lawful = true → l.lawful = true) : LinkKept s { s with lnk := l } :=
  ⟨rfl, h⟩

theorem LinkKept.transmit {s t : State} (h : LinkKept s t) : LinkKept s t.transmit :=
  ⟨t.transmit_pending.trans h.pending, fun hs => State.transmit_lawful (h.lawful hs)⟩

theorem LinkKept.trans {s t u : State} (h : LinkKept s t) (h' : LinkKept t u) : LinkKept s u :=
  ⟨h'.pending.trans h.pending, fun hs => h'.lawful (h.lawful hs)⟩

theorem State.setRx_kept {rx : Rx} {s : State} (h : s.lnk.lawful = true → rx.lawful = true) : LinkKept s (s.setRx rx) :=
  .of_link fun hs => Link.setRx_lawful hs (h hs)

theorem State.judge_kept (len : Byte) (body : List Byte) (check : Byte) (s : State) : LinkKept s (s.judge len body check) := by
  have hlink (r : Result) (kind : Byte) : LinkKept s (s.linkAnswer r kind) :=
    LinkKept.transmit (.of_link (Link.place_lawful _))
  unfold State.judge
  dsimp only
  split_ifs with _ hheld
  · exact hlink _ _
  · exact hlink _ _
  · exact hlink _ _
  · exact hlink _ _
  · exact .of_link fun hs => Link.hold_lawful body hs (by simpa using hheld)

theorem State.warm_kept (s : State) : LinkKept s s.warm := ⟨rfl, fun _ => Link.lawful_reset⟩

/-! ## Every command and event -/

/-- Whatever the state, a command or event goes on, leaves the queue and keeps the law of the link. -/
def KeepsLink (i : Instr) : Prop := ∀ s, ∃ t, exec i s = .next t ∧ LinkKept s t

/-! ### Commands -/

theorem setRate_keepsLink (code : Byte) : KeepsLink (.setRate code) := by
  refine fun s => ⟨_, rfl, .owner ?_⟩
  split
  · exact .refl s
  · exact .check (.ite (.of_lnk rfl rfl) (s.enterPos_works _))

theorem punchManual_keepsLink (lines : LineSet) (action : Byte) : KeepsLink (.punchManual lines action) := by
  refine fun s => ⟨_, rfl, .owner ?_⟩
  split
  · exact .refl s
  · exact .check <| .check <| .check (s.punchManual_works _)

theorem passAbort_keepsLink (context : Byte) : KeepsLink (.passAbort context) := by
  refine fun s => ⟨_, rfl, .owner ?_⟩
  split
  · exact .refl s
  · exact s.abortAll_works _ _

theorem reelClear_keepsLink : KeepsLink .reelClear := by
  refine fun s => ⟨_, rfl, .owner ?_⟩
  dsimp only
  split
  · exact .refl s
  · exact .refl s
  · exact .refl s
  · exact .check (s.clearReel_works _)
  · exact .check (s.clearReel_works _)

theorem reelCopy_keepsLink (source dest : Byte) (delta : BitVec 32) : KeepsLink (.reelCopy source dest delta) := by
  refine fun s => ⟨_, rfl, .owner ?_⟩
  split
  · exact .checked (s.startCopy_works _ _ _)
  · exact .refl s

theorem cueWrite_keepsLink (loop : BitVec 16) (f : CueFields) : KeepsLink (.cueWrite loop f) := by
  refine fun s => ⟨_, rfl, .owner ?_⟩
  split
  · exact .refl s
  · exact cueChecks_works (s.writeChecked_works _ f _)

theorem cueAmend_keepsLink (loop : BitVec 16) (reserved : BitVec 4) (f : AmendFields) : KeepsLink (.cueAmend loop reserved f) := by
  refine fun s => ⟨_, rfl, .owner ?_⟩
  split
  · exact .refl s
  · exact cueChecks_works (s.amendChecked_works loop f _)

theorem cueNext_keepsLink (label : Label) : KeepsLink (.cueNext label) := by
  refine fun s => ⟨_, rfl, .owner ?_⟩
  split
  · exact .refl s
  · split <;> exact .refl s

theorem cueArm_keepsLink (loop : BitVec 16) (kind : Byte) : KeepsLink (.cueArm loop kind) := by
  refine fun s => ⟨_, rfl, .owner ?_⟩
  split
  · exact .refl s
  · exact cueChecks_works (withCue_works fun slot c => s.armFound_works _ slot c)

theorem cueProtect_keepsLink (loop : BitVec 16) (value : Byte) : KeepsLink (.cueProtect loop value) := by
  refine fun s => ⟨_, rfl, .owner ?_⟩
  split
  · exact .refl s
  · exact cueChecks_works (withCue_works fun _ _ => .of_lnk rfl rfl)

theorem takeCircle_keepsLink (loop : BitVec 16) (take value : Byte) : KeepsLink (.takeCircle loop take value) := by
  refine fun s => ⟨_, rfl, .owner ?_⟩
  split
  · exact .refl s
  · exact takeChecks_works fun _ => .of_lnk rfl rfl

/-- STATUS clears the overrun flag, which has no part in the law (R174, R176). -/
theorem status_keepsLink : KeepsLink .status := fun _ => ⟨_, rfl, .owner ⟨rfl, rfl, id⟩⟩

/-! ### Events -/

/-- A byte that takes the receiver on leaves a message in progress within its bounds (R166). -/
theorem rxByte_keepsLink (byte : Byte) (framingError : Bool) : KeepsLink (.rxByte byte framingError) := by
  intro s
  have hlaw (hs : s.lnk.lawful = true) : s.lnk.rx.lawful = true := ((Link.lawful_iff _).mp hs).1
  have hhunt : LinkKept s (s.setRx .hunting) := State.setRx_kept fun _ => rfl
  refine ⟨_, rfl, .ite (.refl s) (.ite hhunt ?_)⟩
  split
  · exact .ite (State.setRx_kept fun _ => rfl) (.refl s)
  · split
    · exact hhunt
    · next h =>
      refine State.setRx_kept fun _ => ?_
      have hzero : byte.toNat ≠ 0 := fun e => h (.inl (BitVec.eq_of_toNat_eq e))
      simp only [Rx.lawful, List.length_nil, Bool.and_eq_true, decide_eq_true_eq]
      omega
  · next len got hrx =>
    simp only [hrx, Rx.lawful, Bool.and_eq_true, decide_eq_true_eq] at hlaw
    split <;>
    · next h =>
      refine State.setRx_kept fun hs => ?_
      obtain ⟨hlen, hgot⟩ := hlaw hs
      simp only [Rx.lawful, List.length_append, List.length_singleton, Bool.and_eq_true, decide_eq_true_eq]
      omega
  · exact hhunt.trans (State.judge_kept _ _ _ _)

theorem txMessageEnd_keepsLink : KeepsLink .txMessageEnd :=
  fun s => ⟨_, rfl, .ite s.warm_kept (LinkKept.transmit (.of_link Link.ended_lawful))⟩

theorem freewheelTimerExpiry_keepsLink : KeepsLink .freewheelTimerExpiry := by
  refine fun s => ⟨_, rfl, Works.kept ?_⟩
  split
  · exact .ite (s.edgePos_works _ _ _) (s.enterPos_works _)
  all_goals exact .refl s

theorem watchTimerExpiry_keepsLink : KeepsLink .watchTimerExpiry := by
  refine fun s => ⟨_, rfl, Works.kept ?_⟩
  split
  · exact s.missing_works
  all_goals exact .refl s

theorem posTick_keepsLink : KeepsLink .posTick := by
  refine fun s => ⟨_, rfl, Works.kept (.ite ?_ (.refl s))⟩
  split
  · exact .of_lnk rfl rfl
  · exact .refl s

theorem pscFrameEdge_keepsLink (edge : FrameEdge) : KeepsLink (.pscFrameEdge edge) := by
  intro s
  have hedge := (s.taken (.pscFrameEdge edge)).edgeWork_works edge
  exact ⟨_, rfl, Works.kept ((hedge.after (s := s) rfl rfl).rest rfl rfl)⟩

theorem pscStateEvent_keepsLink (state : PosState) (dir : Dir) : KeepsLink (.pscStateEvent state dir) := by
  refine fun s => ⟨_, rfl, Works.kept ?_⟩
  cases state with
  | stopped => exact (State.abortAll_works _ _ (s.taken (.pscStateEvent .stopped dir))).after rfl rfl
  | unknown | locked | freewheel => exact .of_lnk rfl rfl

theorem pchFrameEdge_keepsLink (edge : FrameEdge) : KeepsLink (.pchFrameEdge edge) := by
  intro s
  have hout := Works.foldl (State.transferDue_works .punchOut edge.n) allCtx
  have hin := Works.foldl (State.transferDue_works .punchIn edge.n) allCtx
  exact ⟨_, rfl, Works.kept ((((hout _).trans (hin _)).trans (State.transferStagedManual_works _)).after rfl rfl)⟩

theorem pchStateEvent_keepsLink (state : PosState) (dir : Dir) : KeepsLink (.pchStateEvent state dir) := by
  refine fun s => ⟨_, rfl, Works.kept ?_⟩
  cases state with
  | stopped | unknown => exact (State.transferStagedManual_works _).after rfl rfl
  | locked | freewheel => exact .of_lnk rfl rfl

theorem guardTrip_keepsLink (fall : GuardFall) : KeepsLink (.guardTrip fall) := by
  refine fun s => ⟨_, rfl, Works.kept ?_⟩
  cases fall with
  | line => exact .ite (.of_lnk rfl rfl) (.refl s)
  | taken => exact .ite ((State.tripGuard_works _).after rfl rfl) ((State.tripGuard_works _).after rfl rfl)

theorem descriptorSent_keepsLink : KeepsLink .descriptorSent := by
  refine fun s => ⟨_, rfl, Works.kept ?_⟩
  split <;> exact .of_lnk rfl rfl

theorem vgtStateEvent_keepsLink (state : PosState) (dir : Dir) : KeepsLink (.vgtStateEvent state dir) := by
  refine fun s => ⟨_, rfl, Works.kept ?_⟩
  cases state <;> exact .of_lnk rfl rfl

theorem shiftStep_keepsLink : KeepsLink .shiftStep := by
  refine fun s => ⟨_, rfl, Works.kept ?_⟩
  split
  · split
    · exact s.shiftAt_works _ _
    · exact .refl s
    · exact .refl s
  · exact .refl s

theorem copyStep_keepsLink : KeepsLink .copyStep := by
  refine fun s => ⟨_, rfl, Works.kept ?_⟩
  split
  · split
    · split
      · exact s.copyAt_works _ _ _ _
      · exact .refl s
    · exact .refl s
  · exact .refl s

theorem exec_keepsLink (i : Instr) : KeepsLink i := by
  cases i with
  -- the resets
  | coldReset => exact fun s => ⟨_, rfl, rfl, fun _ => Link.lawful_reset⟩
  | warmReset byLine => exact fun s => ⟨_, rfl, rfl, fun _ => Link.lawful_reset⟩
  | resetRelease => exact fun s => ⟨_, rfl, .ite ⟨rfl, fun _ => Link.lawful_reset⟩ (.refl s)⟩
  -- commands
  | status => exact status_keepsLink
  | restart => exact fun s => ⟨_, rfl, .owner (.refl s)⟩
  | setRate code => exact setRate_keepsLink code
  | setFreewheel limit => exact fun s => ⟨_, rfl, .owner (.of_lnk rfl rfl)⟩
  | positionRead => exact fun s => ⟨_, rfl, .owner (.refl s)⟩
  | setVoice qualify allowance => exact fun s => ⟨_, rfl, .owner (.of_lnk rfl rfl)⟩
  | setFlash length => exact fun s => ⟨_, rfl, .owner (.of_lnk rfl rfl)⟩
  | setLines manual activeLow => exact fun s => ⟨_, rfl, .owner (.check (.ite (.of_lnk rfl rfl) (.raised rfl rfl)))⟩
  | punchManual lines action => exact punchManual_keepsLink lines action
  | guardRelease => exact fun s => ⟨_, rfl, .owner (.checked (.of_lnk rfl rfl))⟩
  | passAbort context => exact passAbort_keepsLink context
  | reelSelectPlay reel form =>
    exact fun s => ⟨_, rfl, .owner (withForm_works (withReel_works fun r => s.selectPlay_works r))⟩
  | reelSelectEdit reel => exact fun s => ⟨_, rfl, .owner (withReel_works fun _ => .of_lnk rfl rfl)⟩
  | reelSelectTag reel tag form =>
    exact fun s => ⟨_, rfl, .owner (withForm_works (withReel_works fun _ => .of_lnk rfl rfl))⟩
  | reelInfo reel => exact fun s => ⟨_, rfl, .owner (withReel_works fun _ => .refl s)⟩
  | reelClear => exact reelClear_keepsLink
  | reelShift delta => exact fun s => ⟨_, rfl, .owner (.checked (s.startShift_works _))⟩
  | reelCopy source dest delta => exact reelCopy_keepsLink source dest delta
  | reelResume => exact fun s => ⟨_, rfl, .owner s.resume_works⟩
  | cueWrite loop f => exact cueWrite_keepsLink loop f
  | cueAmend loop reserved f => exact cueAmend_keepsLink loop reserved f
  | cueRetire loop =>
    exact fun s => ⟨_, rfl, .owner (cueChecks_works (withCue_works fun slot c => .check (s.retireCue_works slot c)))⟩
  | cueRead loop => exact fun s => ⟨_, rfl, .owner (.checked (withCue_works fun _ _ => .refl s))⟩
  | cueNext label => exact cueNext_keepsLink label
  | cueArm loop kind => exact cueArm_keepsLink loop kind
  | cueDisarm loop =>
    exact fun s => ⟨_, rfl, .owner (cueChecks_works (withCue_works fun slot c => s.disarmFound_works slot c))⟩
  | cueProtect loop value => exact cueProtect_keepsLink loop value
  | takeCircle loop take value => exact takeCircle_keepsLink loop take value
  | takeRetire loop take => exact fun s => ⟨_, rfl, .owner (takeChecks_works fun slot => s.retireTake_works slot _)⟩
  -- the link
  | rxByte byte framingError => exact rxByte_keepsLink byte framingError
  | gapTimerExpiry => exact fun s => ⟨_, rfl, State.setRx_kept fun _ => rfl⟩
  | txMessageEnd => exact txMessageEnd_keepsLink
  -- the Position Reader
  | ltcFrame frame =>
    exact fun s => ⟨_, rfl, Works.kept (.ite ((s.testAgreement_works frame).trans (State.takeFrame_works frame _)) (.refl s))⟩
  | watchTimerExpiry => exact watchTimerExpiry_keepsLink
  | freewheelTimerExpiry => exact freewheelTimerExpiry_keepsLink
  | posTick => exact posTick_keepsLink
  -- the Pass Scheduler
  | pscFrameEdge edge => exact pscFrameEdge_keepsLink edge
  | pscStateEvent state dir => exact pscStateEvent_keepsLink state dir
  | punchReport report => exact fun s => ⟨_, rfl, (s.takeInTurn_works _ (State.applyReport_works report)).kept⟩
  | guardReport => exact fun s => ⟨_, rfl, (s.takeInTurn_works _ (Works.foldl State.guardCtx_works allCtx)).kept⟩
  -- the Punch Unit
  | pchFrameEdge edge => exact pchFrameEdge_keepsLink edge
  | stageRequest request => exact fun s => ⟨_, rfl, (s.takeInTurn_works _ (State.stageEntry_works _ _)).kept⟩
  | release ctx loop => exact fun s => ⟨_, rfl, (s.takeInTurn_works _ (State.releaseLines_works ctx)).kept⟩
  | pchStateEvent state dir => exact pchStateEvent_keepsLink state dir
  | guardTrip fall => exact guardTrip_keepsLink fall
  | guardRise => exact fun s => ⟨_, rfl, Works.kept (.of_lnk rfl rfl)⟩
  -- the Count-In Unit
  | ciuTick tick dir => exact fun s => ⟨_, rfl, Works.kept (.of_lnk rfl rfl)⟩
  | entryHandover ctx start => exact fun s => ⟨_, rfl, Works.kept (.of_lnk rfl rfl)⟩
  | freeHandover ctx => exact fun s => ⟨_, rfl, Works.kept (.of_lnk rfl rfl)⟩
  | toneHalfWave => exact fun s => ⟨_, rfl, Works.kept (.of_lnk rfl rfl)⟩
  -- the Overlay Composer and the Voice Gate
  | laneReport report => exact fun s => ⟨_, rfl, (s.takeInTurn_works _ (State.draw_works report)).kept⟩
  | ovlStateEvent state dir =>
    exact fun s => ⟨_, rfl, Works.kept (State.takeInTurn_works _ (fun _ => by exact .of_lnk rfl rfl) s)⟩
  | descriptorSent => exact descriptorSent_keepsLink
  | voiceEdge rising => exact fun s => ⟨_, rfl, Works.kept (.of_lnk rfl rfl)⟩
  | vgtTick tick dir => exact fun s => ⟨_, rfl, Works.kept (.of_lnk rfl rfl)⟩
  | vgtStateEvent state dir => exact vgtStateEvent_keepsLink state dir
  | onsetReport onset qualifying allowance =>
    exact fun s => ⟨_, rfl, Works.kept ((State.hearCtxs_onlyCues _ _ _ allCtx _).works.after rfl rfl)⟩
  -- background work
  | shiftStep => exact shiftStep_keepsLink
  | copyStep => exact copyStep_keepsLink

end Sys2Proof.Machine

open Sys2Proof.Machine in
/-- Settles O57: the step takes one command or event, and each keeps the law (`exec_keepsLink`). -/
theorem everyStepKeepsTheLinkLaw : Obligations.EveryStepKeepsTheLinkLaw := by
  intro s t h
  unfold step at h
  split at h
  · next i rest _ =>
    obtain ⟨u, hu, hkept⟩ := exec_keepsLink i { s with pending := rest }
    obtain rfl := Host.Outcome.next.inj (hu.symm.trans h)
    exact hkept.lawful
  · obtain rfl := Host.Outcome.next.inj h
    exact id

open Sys2Proof.Machine in
/-- Settles O2: each command and event has a next state and leaves the queue (`exec_keepsLink`). -/
theorem everyCommandGoesOn : Obligations.EveryCommandGoesOn := by
  intro i s
  obtain ⟨t, ht, hkept⟩ := exec_keepsLink i s
  exact ⟨t, ht, hkept.pending⟩
end

section
/-! The Command Link byte by byte and message by message (R166 to R169, R171, R173 to R175, R177, R178): the receiver, the
judging of a complete message, a notice raised, and the transmitter's choice. -/

namespace Sys2Proof.Machine

/-! ## The receiver -/

section
variable {s : State}

theorem State.setRx_self {rx : Rx} (h : s.lnk.rx = rx) : s.setRx rx = s := by subst h; rfl

theorem execRxByte_hunting (h : s.board.resetLow = false) (hrx : s.lnk.rx = .hunting) (b : Byte) :
    exec (.rxByte b false) s = .next (s.setRx (if b = 0xD5 then .length else .hunting)) := by
  simp only [exec, execRxByte, h, hrx, Bool.false_eq_true, if_false]
  split
  · rfl
  · rw [State.setRx_self hrx]

/-- A byte is zero exactly if it is no length of at least 1. -/
theorem Byte.eq_zero_iff (b : Byte) : b = 0 ↔ ¬ 1 ≤ b.toNat := by
  rw [← BitVec.toNat_inj]
  simp

theorem execRxByte_length (h : s.board.resetLow = false) (hrx : s.lnk.rx = .length) (b : Byte) :
    exec (.rxByte b false) s = .next (s.setRx (if 1 ≤ b.toNat ∧ b.toNat ≤ 64 then .body b [] else .hunting)) := by
  have hdrop : (b = 0 ∨ 64 < b.toNat) ↔ ¬ (1 ≤ b.toNat ∧ b.toNat ≤ 64) := by
    rw [Byte.eq_zero_iff]
    omega
  simp only [exec, execRxByte, h, hrx, Bool.false_eq_true, if_false, hdrop, ite_not]
  split <;> rfl

theorem execRxByte_body {len : Byte} {got : List Byte} (h : s.board.resetLow = false) (hrx : s.lnk.rx = .body len got)
    (hlen : got.length + 1 < len.toNat) (b : Byte) :
    exec (.rxByte b false) s = .next (s.setRx (.body len (got ++ [b]))) := by
  simp only [exec, execRxByte, h, hrx, Bool.false_eq_true, if_false, hlen, if_true]

theorem execRxByte_lastBody {len : Byte} {got : List Byte} (h : s.board.resetLow = false) (hrx : s.lnk.rx = .body len got)
    (hlen : got.length + 1 = len.toNat) (b : Byte) :
    exec (.rxByte b false) s = .next (s.setRx (.check len (got ++ [b]))) := by
  simp only [exec, execRxByte, h, hrx, Bool.false_eq_true, if_false, hlen, lt_irrefl]

theorem execRxByte_check {len : Byte} {got : List Byte} (h : s.board.resetLow = false) (hrx : s.lnk.rx = .check len got)
    (b : Byte) : exec (.rxByte b false) s = .next ((s.setRx .hunting).judge len got b) := by
  simp only [exec, execRxByte, h, hrx, Bool.false_eq_true, if_false]

theorem execRxByte_framing (h : s.board.resetLow = false) (b : Byte) :
    exec (.rxByte b true) s = .next (s.setRx .hunting) := by
  simp only [exec, execRxByte, h]
  rfl

theorem execRxByte_low (h : s.board.resetLow = true) (b : Byte) (e : Bool) : exec (.rxByte b e) s = .next s := by
  simp only [exec, execRxByte, h]
  rfl

end

end Sys2Proof.Machine

open Sys2Proof Sys2Proof.Machine in
/-- Settles O6: a byte at each receive state, a framing error and RESET low (`execRxByte_hunting` to `execRxByte_low`). -/
theorem receiverFollowsItsStates : Obligations.ReceiverFollowsItsStates :=
  ⟨by decide,
    fun b _ h => ⟨fun hrx => execRxByte_hunting h hrx b, fun hrx => execRxByte_length h hrx b,
      fun _ _ hrx hlen => execRxByte_body h hrx hlen b, fun _ _ hrx hlen => execRxByte_lastBody h hrx hlen b,
      execRxByte_framing h b⟩,
    fun _ => rfl, fun b e _ h => execRxByte_low h b e⟩

open Sys2Proof Sys2Proof.Machine in
/-- Settles O10: room in the queue decides (`State.raise_noticed`, `Link.join_full`). -/
theorem noticesJoinOrAreDiscarded : Obligations.NoticesJoinOrAreDiscarded := by
  refine fun n s => ⟨s.raise_apart n, congrArg (fun x => x.2.2) (s.raise_intake n), fun hroom => ?_, fun hfull => ?_⟩
  · obtain ⟨hheld, -, -, -, hoverrun, -⟩ := State.raise_noticed n s hroom
    exact ⟨hheld, hoverrun⟩
  · have hjoin := Link.join_full n s.lnk (Nat.not_lt.mpr hfull)
    simp only [State.raise, State.transmit_noticesHeld, State.transmit_overrun, hjoin]
    exact ⟨rfl, trivial⟩

namespace Sys2Proof.Machine

/-! ## The transmitter -/

theorem Link.choose_owner {l : Link} {a : Answer} {rest : List Place} (hwire : l.wire = none)
    (h : l.answers = .owner (some a) :: rest) : l.choose = { l with wire := some (.answer a), answers := rest } := by
  simp [Link.choose, hwire, h]

theorem Link.choose_link {l : Link} {a : LinkAnswer} {rest : List Place} (hwire : l.wire = none)
    (h : l.answers = .link a :: rest) : l.choose = { l with wire := some (.linkAnswer a), answers := rest } := by
  simp [Link.choose, hwire, h]

/-- Where no filled answer stands at the head of the list, the oldest notice goes (R175). -/
theorem Link.choose_notice {l : Link} (hwire : l.wire = none) (h : l.answers.head?.all Place.isEmpty = true) :
    l.choose = { l with wire := l.notices.head?.map .notice, notices := l.notices.tail } := by
  obtain ⟨rx, held, answers, notices, wire, overrun⟩ := l
  obtain rfl : wire = none := hwire
  obtain - | ⟨p, rest⟩ := answers
  · cases notices <;> rfl
  · have hp : p = .owner none := by
      cases p with
      | owner a => cases a with
        | none => rfl
        | some a => cases h
      | link a => cases h
    subst hp
    cases notices <;> rfl

/-- Whether a message is an owner's answer, whose end releases the held command (R169). -/
def Message.isAnswer : Message → Bool
  | .answer _ => true
  | .linkAnswer _ | .notice _ => false

/-- After the end of a message LINK TX is idle, and of the link the held command alone may have gone (R169). -/
theorem Link.ended_eq {l : Link} {m : Message} (h : l.wire = some m) :
    l.ended = { l with wire := none, held := if m.isAnswer then none else l.held } := by
  cases m <;> simp [Link.ended, h, Message.isAnswer]

theorem Link.endsRestart_iff {l : Link} {m : Message} (h : l.wire = some m) :
    l.endsRestart = true ↔ ∃ a, m = .answer a ∧ a.kind = 0x02 := by
  cases m <;> simp [Link.endsRestart, h]

end Sys2Proof.Machine

open Sys2Proof Sys2Proof.Machine in
/-- Settles O9: the message ends (`Link.ended_eq`), then the idle transmitter chooses by the head of the answer list
(`Link.choose_owner`, `Link.choose_link`, `Link.choose_notice`). -/
theorem transmitterChooses : Obligations.TransmitterChooses := by
  refine fun m s hhigh hwire => ⟨fun a hm ha => ?_, fun hother => ?_⟩
  · have hrestart := (Link.endsRestart_iff hwire).mpr ⟨a, hm, ha⟩
    simp only [exec, execTxMessageEnd, execWarmReset, hrestart, if_true, Bool.or_false]
    rfl
  · have hgoes : s.lnk.endsRestart = false := by
      rw [← Bool.not_eq_true, Link.endsRestart_iff hwire]
      exact fun ⟨a, hm, ha⟩ => hother a hm ha
    have hended := Link.ended_eq hwire
    have hidle : s.lnk.ended.wire = none := by rw [hended]
    have hanswers : s.lnk.ended.answers = s.lnk.answers := by rw [hended]
    have hexec : exec .txMessageEnd s = .next { s with lnk := s.lnk.ended.choose } := by
      simp only [exec, execTxMessageEnd, hgoes, State.transmit, hhigh]
      rfl
    have hheld : s.lnk.ended.choose.held = if m.isAnswer then none else s.lnk.held := by rw [Link.choose_held, hended]
    have hrx : s.lnk.ended.choose.rx = s.lnk.rx := by rw [Link.choose_rx, hended]
    have hoverrun : s.lnk.ended.choose.overrun = s.lnk.overrun := by rw [Link.choose_overrun, hended]
    refine ⟨_, hexec, rfl, rfl, hrx, hoverrun, ?_, fun hm => ?_, fun a rest h => ?_, fun a rest h => ?_, fun h => ?_⟩
    · rintro ⟨a, rfl⟩
      exact hheld
    · cases m with
      | answer a => exact absurd rfl (hm a)
      | linkAnswer a | notice n => exact hheld
    · dsimp only
      rw [Link.choose_owner hidle (hanswers.trans h), hended]
      exact ⟨rfl, rfl, rfl⟩
    · dsimp only
      rw [Link.choose_link hidle (hanswers.trans h), hended]
      exact ⟨rfl, rfl, rfl⟩
    · dsimp only
      rw [Link.choose_notice hidle (hanswers.symm ▸ h), hended]
      exact ⟨rfl, rfl, rfl⟩
end

section
/-! The bodies of the controller's commands (R170, R179 to R182, Tables 10-3 and 10-5): each is read back as its command, its
kind allows its length, and a body of an allowed length spells a command. -/

namespace Sys2Proof.Machine

/-! ## Fields of more than one byte (R180) -/

theorem word16_bytes (v : BitVec 16) : word16 (v.extractLsb' 8 8) (v.extractLsb' 0 8) = v :=
  (BitVec.extractLsb'_append_extractLsb'_eq_extractLsb' rfl).trans BitVec.extractLsb'_eq_self

theorem word32_bytes (v : BitVec 32) :
    word32 (v.extractLsb' 24 8) (v.extractLsb' 16 8) (v.extractLsb' 8 8) (v.extractLsb' 0 8) = v :=
  calc word32 (v.extractLsb' 24 8) (v.extractLsb' 16 8) (v.extractLsb' 8 8) (v.extractLsb' 0 8)
    _ = v.extractLsb' 16 16 ++ v.extractLsb' 8 8 ++ v.extractLsb' 0 8 :=
      congrArg (fun x => x ++ v.extractLsb' 8 8 ++ v.extractLsb' 0 8) (BitVec.extractLsb'_append_extractLsb'_eq_extractLsb' rfl)
    _ = v.extractLsb' 8 24 ++ v.extractLsb' 0 8 :=
      congrArg (fun x => x ++ v.extractLsb' 0 8) (BitVec.extractLsb'_append_extractLsb'_eq_extractLsb' rfl)
    _ = v.extractLsb' 0 32 := BitVec.extractLsb'_append_extractLsb'_eq_extractLsb' rfl
    _ = v := BitVec.extractLsb'_eq_self

/-! ## The readers of the fields, on the bytes written -/

section
variable (loop : BitVec 16)

theorem readLoop_bytes (f : BitVec 16 → Instr) : readLoop f (bytes16 loop) = some (f loop) :=
  congrArg (fun x => some (f x)) (word16_bytes loop)

theorem readLoop1_bytes (f : BitVec 16 → Byte → Instr) (v : Byte) : readLoop1 f (bytes16 loop ++ [v]) = some (f loop v) :=
  congrArg (fun x => some (f x v)) (word16_bytes loop)

theorem readCircle_bytes (take value : Byte) :
    readCircle (bytes16 loop ++ [take, value]) = some (.takeCircle loop take value) :=
  congrArg (fun x => some (Instr.takeCircle x take value)) (word16_bytes loop)

theorem readWrite_bytes (f : CueFields) : readWrite (fieldBytes (.cueWrite loop f)) = some (.cueWrite loop f) := by
  simp only [fieldBytes, bytes16, labelBytes, List.cons_append, List.nil_append, readWrite, word16_bytes]

end

theorem readShift_bytes (delta : BitVec 32) : readShift (bytes32 delta) = some (.reelShift delta) :=
  congrArg (fun x => some (Instr.reelShift x)) (word32_bytes delta)

theorem readCopy_bytes (source dest : Byte) (delta : BitVec 32) :
    readCopy ([source, dest] ++ bytes32 delta) = some (.reelCopy source dest delta) :=
  congrArg (fun x => some (Instr.reelCopy source dest x)) (word32_bytes delta)

/-! ## The forms of REEL_SELECT (R182, log entry 4) -/

theorem formByte_toNat (own : Byte) (f : UndefinedForm) : (formByte own (some f)).toNat = f.val + 3 :=
  Nat.mod_eq_of_lt (by omega)

/-- A form byte that is no defined form is read as the form it is. -/
theorem undefinedForm_formByte {own : Byte} (hown : own.toNat < 3) (form : Option UndefinedForm) :
    undefinedForm (formByte own form) = form := by
  cases form with
  | none => exact dif_neg (Nat.not_le.mpr hown)
  | some f =>
    have h := formByte_toNat own f
    have h3 : 3 ≤ (formByte own (some f)).toNat := by omega
    rw [undefinedForm, dif_pos h3]
    exact congrArg some (Fin.ext (by simp [h]))

/-- A form byte is none of the defined forms but its own. -/
theorem formByte_ne {own other : Byte} (hother : other.toNat < 3) (hne : own ≠ other) (form : Option UndefinedForm) :
    formByte own form ≠ other := by
  cases form with
  | none => exact hne
  | some f =>
    rintro rfl
    rw [formByte_toNat] at hother
    omega

theorem readSelect_play (reel : Byte) (form : Option UndefinedForm) :
    readSelect [formByte 0x00 form, reel] = some (.reelSelectPlay reel form) := by
  rw [readSelect, if_neg (formByte_ne (by decide) (by decide) form), if_neg (formByte_ne (by decide) (by decide) form),
    undefinedForm_formByte (by decide)]

theorem formByte_tag (form : Option UndefinedForm) : ¬ (formByte 0x02 form = 0x00 ∨ formByte 0x02 form = 0x01) :=
  not_or.mpr ⟨formByte_ne (by decide) (by decide) form, formByte_ne (by decide) (by decide) form⟩

theorem readSelect_tag (reel : Byte) (tag : BitVec 16) (form : Option UndefinedForm) :
    readSelect ([formByte 0x02 form, reel] ++ bytes16 tag) = some (.reelSelectTag reel tag form) := by
  simp only [bytes16, List.cons_append, List.nil_append, readSelect, if_neg (formByte_tag form), word16_bytes,
    undefinedForm_formByte (show (0x02 : Byte).toNat < 3 by decide)]

/-- The lengths that the form byte allows (R182). -/
theorem lengthAllowed_select (form : Byte) (fs : List Byte) : lengthAllowed (0x20 :: form :: fs) =
    if form = 0x00 ∨ form = 0x01 then fs.length + 1 == 2
    else if form = 0x02 then fs.length + 1 == 4 else fs.length + 1 == 2 || fs.length + 1 == 4 := rfl

/-! ## The field mask of an amend (Table 10-5) -/

theorem getLsbD_append_bit {n : Nat} (x : BitVec n) (b : Bool) (i : Nat) :
    (x ++ BitVec.ofBool b).getLsbD i = if i = 0 then b else x.getLsbD (i - 1) := by
  rw [BitVec.getLsbD_append, BitVec.getLsbD_ofBool]
  cases i <;> simp

/-- The mask bits of the fields, in increasing order of mask bit. -/
theorem maskLow_getLsbD (f : AmendFields) (i : Nat) : (maskLow f).getLsbD i =
    [f.inPt.isSome, f.outPt.isSome, f.char.isSome, f.beeps.isSome, f.spacing.isSome, f.onTime.isSome, f.tone.isSome,
      f.streamer.isSome].getD i false := by
  unfold maskLow
  iterate 7 rw [getLsbD_append_bit]
  rw [BitVec.getLsbD_ofBool]
  rcases i with _ | _ | _ | _ | _ | _ | _ | _ | i <;> simp

theorem maskHigh_getLsbD (r : BitVec 4) (f : AmendFields) {i : Nat} (hi : i < 4) : (maskHigh r f).getLsbD i =
    [f.colour.isSome, f.tail.isSome, f.lines.isSome, f.mode.isSome].getD i false := by
  unfold maskHigh
  iterate 4 rw [getLsbD_append_bit]
  obtain _ | _ | _ | _ | i := i
  all_goals simp
  omega

theorem maskHigh_reserved (r : BitVec 4) (f : AmendFields) : (maskHigh r f).extractLsb' 4 4 = r := by
  rw [maskHigh, BitVec.extractLsb'_append_eq_of_le (by decide), BitVec.extractLsb'_append_eq_of_le (by decide),
    BitVec.extractLsb'_append_eq_of_le (by decide), BitVec.extractLsb'_append_eq_of_le (by decide)]
  exact BitVec.extractLsb'_eq_self

/-! ## The named fields of an amend -/

section
variable {β : Type} {on : Bool}

/-- A field is cut from the front of the bytes that begin with it. -/
theorem bind_cutByte {b : Option Byte} (h : on = b.isSome) (rest : List Byte) (g : Option Byte × List Byte → Option β) :
    (cutByte on (optByte b ++ rest)).bind g = g (b, rest) := by
  subst h; cases b <;> rfl

theorem bind_cutWord {w : Option (BitVec 16)} (h : on = w.isSome) (rest : List Byte)
    (g : Option (BitVec 16) × List Byte → Option β) : (cutWord on (optWord w ++ rest)).bind g = g (w, rest) := by
  subst h
  cases w with
  | none => rfl
  | some w => exact congrArg (fun x => g (some x, rest)) (word16_bytes w)

theorem bind_cutLabel {l : Option Label} (h : on = l.isSome) (rest : List Byte) (g : Option Label × List Byte → Option β) :
    (cutLabel on (optLabel l ++ rest)).bind g = g (l, rest) := by
  subst h; cases l <;> rfl

end

theorem readAmend_bytes (r : BitVec 4) (f : AmendFields) :
    readAmend (maskHigh r f) (maskLow f) (amendBytes f) = some f := by
  have low := maskLow_getLsbD f
  have high {i : Nat} := maskHigh_getLsbD r f (i := i)
  rw [readAmend, amendBytes, ← List.append_nil (optByte f.mode)]
  refine (bind_cutLabel (low 0) _ _).trans <| (bind_cutLabel (low 1) _ _).trans <| (bind_cutByte (low 2) _ _).trans <|
    (bind_cutByte (low 3) _ _).trans <| (bind_cutByte (low 4) _ _).trans <| (bind_cutWord (low 5) _ _).trans <|
    (bind_cutByte (low 6) _ _).trans <| (bind_cutByte (low 7) _ _).trans <| (bind_cutByte (high (i := 0) (by decide)) _ _).trans <|
    (bind_cutWord (high (i := 1) (by decide)) _ _).trans <| (bind_cutByte (high (i := 2) (by decide)) _ _).trans <|
    (bind_cutByte (high (i := 3) (by decide)) _ _).trans rfl

theorem readAmendCommand_bytes (loop : BitVec 16) (r : BitVec 4) (f : AmendFields) :
    readAmendCommand (fieldBytes (.cueAmend loop r f)) = some (.cueAmend loop r f) := by
  simp only [fieldBytes, bytes16, List.cons_append, List.nil_append, readAmendCommand, readAmend_bytes, Option.map_some,
    maskHigh_reserved, word16_bytes]

/-- The named fields are as long as the mask says (R182). -/
theorem amendBytes_length (r : BitVec 4) (f : AmendFields) :
    (amendBytes f).length = maskWidths (maskHigh r f) (maskLow f) := by
  have hbyte (b : Option Byte) : (optByte b).length = if b.isSome then 1 else 0 := by cases b <;> rfl
  have hword (w : Option (BitVec 16)) : (optWord w).length = if w.isSome then 2 else 0 := by cases w <;> rfl
  have hlabel (l : Option Label) : (optLabel l).length = if l.isSome then 4 else 0 := by cases l <;> rfl
  simp only [amendBytes, maskWidths, maskLow_getLsbD, maskHigh_getLsbD, Nat.reduceLT, List.getD_cons_zero, List.getD_cons_succ,
    List.length_append, hbyte, hword, hlabel, Nat.add_assoc]

theorem maskWidths_le (hi lo : Byte) : maskWidths hi lo ≤ 4 + 4 + 1 + 1 + 1 + 2 + 1 + 1 + 1 + 2 + 1 + 1 := by
  unfold maskWidths
  dsimp only
  gcongr <;> split <;> decide

/-! ## Every command of the controller -/

section
variable {i : Instr} {k : Byte}

theorem bodyOf_eq (hk : kindOf i = some k) : bodyOf i = k :: fieldBytes i := by simp [bodyOf, hk]

theorem isCommandKind_of_kindOf (hk : kindOf i = some k) : isCommandKind k = true := by
  cases i with
  | status | restart | setRate | setFreewheel | positionRead | setVoice | setFlash | setLines | punchManual | guardRelease
  | passAbort | reelSelectPlay | reelSelectEdit | reelSelectTag | reelInfo | reelClear | reelShift | reelCopy | reelResume
  | cueWrite | cueAmend | cueRetire | cueRead | cueNext | cueArm | cueDisarm | cueProtect | takeCircle | takeRetire =>
    cases hk; rfl
  | _ => cases hk

/-- A body is read back as the command that wrote it (Tables 10-3 and 10-5). -/
theorem commandOf_bodyOf (hk : kindOf i = some k) : commandOf (bodyOf i) = some i := by
  cases i with
  | status | restart | setRate | setFreewheel | positionRead | setVoice | setFlash | setLines | punchManual | guardRelease
  | passAbort | reelSelectEdit | reelInfo | reelClear | reelResume | cueNext => rfl
  | reelSelectPlay reel form => exact readSelect_play reel form
  | reelSelectTag reel tag form => exact readSelect_tag reel tag form
  | reelShift delta => exact readShift_bytes delta
  | reelCopy source dest delta => exact readCopy_bytes source dest delta
  | cueWrite loop f => exact readWrite_bytes loop f
  | cueAmend loop r f => exact readAmendCommand_bytes loop r f
  | cueRetire loop => exact readLoop_bytes loop .cueRetire
  | cueRead loop => exact readLoop_bytes loop .cueRead
  | cueDisarm loop => exact readLoop_bytes loop .cueDisarm
  | cueArm loop v => exact readLoop1_bytes loop .cueArm v
  | cueProtect loop v => exact readLoop1_bytes loop .cueProtect v
  | takeRetire loop v => exact readLoop1_bytes loop .takeRetire v
  | takeCircle loop take value => exact readCircle_bytes loop take value
  | _ => cases hk

/-- A body has a length its kind allows (R170, R182). -/
theorem lengthAllowed_bodyOf (hk : kindOf i = some k) : lengthAllowed (bodyOf i) = true := by
  cases i with
  | status | restart | setRate | setFreewheel | positionRead | setVoice | setFlash | setLines | punchManual | guardRelease
  | passAbort | reelSelectEdit | reelInfo | reelClear | reelShift | reelCopy | reelResume | cueWrite | cueRetire | cueRead
  | cueNext | cueArm | cueDisarm | cueProtect | takeCircle | takeRetire => rfl
  | reelSelectPlay reel form =>
    refine (lengthAllowed_select _ [reel]).trans ?_
    rw [if_neg (formByte_ne (by decide) (by decide) form)]
    split <;> rfl
  | reelSelectTag reel tag form =>
    refine ((lengthAllowed_select _ (reel :: bytes16 tag)).trans (if_neg (formByte_tag form))).trans ?_
    split <;> rfl
  | cueAmend loop r f => exact beq_iff_eq.mpr (amendBytes_length r f)
  | _ => cases hk

/-- A body fits the longest message (R166). -/
theorem fieldBytes_length_le (i : Instr) : (fieldBytes i).length ≤ 63 := by
  cases i with
  | cueAmend loop r f =>
    have h := maskWidths_le (maskHigh r f) (maskLow f)
    rw [← amendBytes_length] at h
    simp only [fieldBytes, bytes16, List.length_append, List.length_cons, List.length_nil]
    omega
  | _ => exact Nat.le_of_ble_eq_true rfl

end

/-! ## Frames (R168, R179) -/

theorem frame_sum (len sum : Byte) : len + sum + -(len + sum) = 0 := BitVec.add_right_neg _

theorem frame_length {body : List Byte} (h : body.length ≤ 64) : (BitVec.ofNat 8 body.length).toNat = body.length :=
  Nat.mod_eq_of_lt (by omega)

/-! ## Every body of an allowed length spells a command (R168, R170) -/

section
variable {fs : List Byte}

theorem read0_isSome (i : Instr) (h : fs.length + 1 = 1) : (read0 i fs).isSome = true := by
  match fs, h with
  | [], _ => rfl

theorem read1_isSome (f : Byte → Instr) (h : fs.length + 1 = 2) : (read1 f fs).isSome = true := by
  match fs, h with
  | [_], _ => rfl

theorem read2_isSome (f : Byte → Byte → Instr) (h : fs.length + 1 = 3) : (read2 f fs).isSome = true := by
  match fs, h with
  | [_, _], _ => rfl

theorem readLoop_isSome (f : BitVec 16 → Instr) (h : fs.length + 1 = 3) : (readLoop f fs).isSome = true := by
  match fs, h with
  | [_, _], _ => rfl

theorem readLoop1_isSome (f : BitVec 16 → Byte → Instr) (h : fs.length + 1 = 4) : (readLoop1 f fs).isSome = true := by
  match fs, h with
  | [_, _, _], _ => rfl

theorem readShift_isSome (h : fs.length + 1 = 5) : (readShift fs).isSome = true := by
  match fs, h with
  | [_, _, _, _], _ => rfl

theorem readNext_isSome (h : fs.length + 1 = 5) : (readNext fs).isSome = true := by
  match fs, h with
  | [_, _, _, _], _ => rfl

theorem readCircle_isSome (h : fs.length + 1 = 5) : (readCircle fs).isSome = true := by
  match fs, h with
  | [_, _, _, _], _ => rfl

theorem readCopy_isSome (h : fs.length + 1 = 7) : (readCopy fs).isSome = true := by
  match fs, h with
  | [_, _, _, _, _, _], _ => rfl

theorem readWrite_isSome (h : fs.length + 1 = 23) : (readWrite fs).isSome = true := by
  match fs, h with
  | [_, _, _, _, _, _, _, _, _, _, _, _, _, _, _, _, _, _, _, _, _, _], _ => rfl

end

/-- A body of the one length its kind allows spells a command. -/
theorem commandOf_fixed : ∀ p ∈ fixedLengths, ∀ fs : List Byte, fs.length + 1 = p.2 →
    (commandOf (p.1 :: fs)).isSome = true := by
  simp only [fixedLengths, List.forall_mem_cons, List.not_mem_nil, false_implies, implies_true, and_true]
  exact ⟨fun _ => read0_isSome _, fun _ => read0_isSome _, fun _ => read1_isSome _, fun _ => read1_isSome _,
    fun _ => read0_isSome _, fun _ => read2_isSome _, fun _ => read1_isSome _, fun _ => read2_isSome _,
    fun _ => read2_isSome _, fun _ => read0_isSome _, fun _ => read1_isSome _, fun _ => read1_isSome _,
    fun _ => read0_isSome _, fun _ => readShift_isSome, fun _ => readCopy_isSome, fun _ => read0_isSome _,
    fun _ => readWrite_isSome, fun _ => readLoop_isSome _, fun _ => readLoop_isSome _, fun _ => readNext_isSome,
    fun _ => readLoop1_isSome _, fun _ => readLoop_isSome _, fun _ => readLoop1_isSome _, fun _ => readCircle_isSome,
    fun _ => readLoop1_isSome _⟩

/-- A REEL_SELECT of a length its form byte allows. -/
theorem readSelect_isSome {fs : List Byte} (h : lengthAllowed (0x20 :: fs) = true) : (readSelect fs).isSome = true := by
  obtain - | ⟨form, rest⟩ := fs
  · cases h
  · rw [lengthAllowed_select] at h
    have hlen : rest.length + 1 = 2 ∨ rest.length + 1 = 4 := by
      split_ifs at h <;> simp_all
    match rest, hlen with
    | [reel], _ =>
      have hform : form ≠ 0x02 := by
        rintro rfl
        cases h
      simp only [readSelect, if_neg hform]
      split <;> rfl
    | [reel, a, b], _ =>
      have hform : ¬ (form = 0x00 ∨ form = 0x01) := fun e => by
        rw [if_pos e] at h
        cases h
      exact congrArg Option.isSome (if_neg hform)

/-- A cut that takes `n` bytes, where there are that many. -/
def Cuts {α : Type} (n : Nat) (cut : List Byte → Option (α × List Byte)) : Prop :=
  ∀ bs, n ≤ bs.length → ∃ a rest, cut bs = some (a, rest) ∧ rest.length + n = bs.length

theorem cutByte_cuts (on : Bool) : Cuts (if on then 1 else 0) (cutByte on) := by
  intro bs h
  cases on with
  | false => exact ⟨none, bs, rfl, rfl⟩
  | true =>
    match bs, h with
    | b :: rest, _ => exact ⟨some b, rest, rfl, rfl⟩

theorem cutWord_cuts (on : Bool) : Cuts (if on then 2 else 0) (cutWord on) := by
  intro bs h
  cases on with
  | false => exact ⟨none, bs, rfl, rfl⟩
  | true =>
    match bs, h with
    | a :: b :: rest, _ => exact ⟨some (word16 a b), rest, rfl, rfl⟩

theorem cutLabel_cuts (on : Bool) : Cuts (if on then 4 else 0) (cutLabel on) := by
  intro bs h
  cases on with
  | false => exact ⟨none, bs, rfl, rfl⟩
  | true =>
    match bs, h with
    | a :: b :: c :: d :: rest, _ => exact ⟨some ⟨a, b, c, d⟩, rest, rfl, rfl⟩

/-- A cut, then a reading of exactly the bytes that are left. -/
theorem Cuts.bind_isSome {α β : Type} {n m : Nat} {cut : List Byte → Option (α × List Byte)} {g : α × List Byte → Option β}
    (hcut : Cuts n cut) (hg : ∀ a rest, rest.length = m → (g (a, rest)).isSome = true) (bs : List Byte)
    (h : bs.length = n + m) : ((cut bs).bind g).isSome = true := by
  obtain ⟨a, rest, hbs, hrest⟩ := hcut bs (by omega)
  rw [hbs]
  exact hg a rest (by omega)

theorem readAmend_isSome {hi lo : Byte} {bs : List Byte} (h : bs.length = maskWidths hi lo) :
    (readAmend hi lo bs).isSome = true := by
  unfold readAmend
  refine (cutLabel_cuts _).bind_isSome (fun inPt => (cutLabel_cuts _).bind_isSome fun outPt =>
    (cutByte_cuts _).bind_isSome fun char => (cutByte_cuts _).bind_isSome fun beeps =>
    (cutByte_cuts _).bind_isSome fun spacing => (cutWord_cuts _).bind_isSome fun onTime =>
    (cutByte_cuts _).bind_isSome fun tone => (cutByte_cuts _).bind_isSome fun streamer =>
    (cutByte_cuts _).bind_isSome fun colour => (cutWord_cuts _).bind_isSome fun tail =>
    (cutByte_cuts _).bind_isSome fun lines => (cutByte_cuts _).bind_isSome (m := 0) fun mode rest hrest => ?_) bs (h.trans ?_)
  · obtain rfl := List.length_eq_zero_iff.mp hrest
    rfl
  · simp only [maskWidths, Nat.add_assoc, Nat.add_zero]

/-! ## Command kinds (R168) -/

theorem mem_of_lookup {k : Byte} {n : Nat} {table : List (Byte × Nat)} (h : table.lookup k = some n) : (k, n) ∈ table := by
  obtain ⟨before, after, rfl, -⟩ := List.lookup_eq_some_iff.mp h
  exact List.mem_append_right _ List.mem_cons_self

/-- A command kind is REEL_SELECT, CUE_AMEND or a kind of one length. -/
theorem isCommandKind_iff (k : Byte) : isCommandKind k = true ↔ k = 0x20 ∨ k = 0x29 ∨ ∃ n, (k, n) ∈ fixedLengths := by
  have hmem : (fixedLengths.lookup k).isSome = true ↔ ∃ n, (k, n) ∈ fixedLengths := by
    constructor
    · intro h
      obtain ⟨n, hn⟩ := Option.isSome_iff_exists.mp h
      exact ⟨n, mem_of_lookup hn⟩
    · rintro ⟨n, hn⟩
      by_contra hnone
      have := List.lookup_eq_none_iff.mp (Option.not_isSome_iff_eq_none.mp hnone) _ hn
      simp at this
  simp only [isCommandKind, Bool.or_eq_true, beq_iff_eq, hmem, or_assoc]

/-- A body of the length its kind allows spells a command (R170). -/
theorem commandOf_isSome {body : List Byte} (hlen : lengthAllowed body = true) : (commandOf body).isSome = true := by
  obtain - | ⟨k, fs⟩ := body
  · cases hlen
  · by_cases hselect : k = 0x20
    · subst hselect
      exact readSelect_isSome hlen
    · by_cases hamend : k = 0x29
      · subst hamend
        match fs, hlen with
        | l0 :: l1 :: hi :: lo :: rest, hlen =>
          exact (Option.isSome_map ..).trans (readAmend_isSome (beq_iff_eq.mp hlen))
      · have hfixed : lengthAllowed (k :: fs) = (fixedLengths.lookup k).elim false ((k :: fs).length == ·) := by
          simp only [lengthAllowed, if_neg hselect, if_neg hamend]
          cases fixedLengths.lookup k <;> rfl
        rw [hfixed] at hlen
        cases hn : fixedLengths.lookup k with
        | none => simp [hn] at hlen
        | some n =>
          simp only [hn, Option.elim_some, beq_iff_eq] at hlen
          exact commandOf_fixed (k, n) (mem_of_lookup hn) fs hlen

end Sys2Proof.Machine

open Sys2Proof Sys2Proof.Machine in
/-- Settles O12: a body is read back field by field (`commandOf_bodyOf`), and the check byte is the sum's negative. -/
theorem commandBodiesRoundTrip : Obligations.CommandBodiesRoundTrip := by
  refine ⟨fun i k hk => ?_, fun body h => ⟨_, _, rfl, frame_length h, frame_sum _ _⟩⟩
  have hbody := bodyOf_eq hk
  refine ⟨commandOf_bodyOf hk, by rw [hbody]; rfl, isCommandKind_of_kindOf hk, lengthAllowed_bodyOf hk, ?_, ?_⟩
  · rw [hbody]
    exact Nat.le_add_left 1 _
  · rw [hbody]
    exact Nat.succ_le_succ (fieldBytes_length_le i)
end

section
/-! A complete message on LINK RX: the judging of R168, and a frame sent byte by byte. -/

namespace Sys2Proof.Machine

/-! ## An answer of the link's own (R171) -/

section
variable (r : Result) (k : Byte) (s : State)

theorem Link.place_cases (a : LinkAnswer) (l : Link) :
    l.place a = { l with answers := l.answers ++ [.link a] } ∨ l.place a = { l with overrun := true } := by
  by_cases h : l.ownAnswers < 3
  · exact .inl (Link.place_room a h)
  · exact .inr (Link.place_full a h)

@[simp] theorem State.linkAnswer_apart : (s.linkAnswer r k).apart = s.apart :=
  State.transmit_apart _

@[simp] theorem State.linkAnswer_lastAnswer : (s.linkAnswer r k).lastAnswer = s.lastAnswer :=
  State.transmit_lastAnswer _

@[simp] theorem State.linkAnswer_rx : (s.linkAnswer r k).lnk.rx = s.lnk.rx := by
  obtain h | h := Link.place_cases ⟨r, k⟩ s.lnk <;> simp [State.linkAnswer, h]

@[simp] theorem State.linkAnswer_held : (s.linkAnswer r k).lnk.held = s.lnk.held := by
  obtain h | h := Link.place_cases ⟨r, k⟩ s.lnk <;> simp [State.linkAnswer, h]

@[simp] theorem State.linkAnswer_noticesHeld : (s.linkAnswer r k).lnk.noticesHeld = s.lnk.noticesHeld := by
  obtain h | h := Link.place_cases ⟨r, k⟩ s.lnk <;> simp only [State.linkAnswer, State.transmit_noticesHeld, h] <;> rfl

/-- What the link's own answer with result `r` and kind `k` makes of `s`: it is placed behind the answers that wait, or
discarded with the overrun flag set where three wait (R171). -/
def OwnAnswered (s t : State) : Prop :=
  t.lnk.held = s.lnk.held ∧ t.lastAnswer = s.lastAnswer ∧ if s.lnk.ownAnswers < 3
    then t.lnk.placesHeld = s.lnk.placesHeld ++ [.link { result := r, kind := k }] ∧ t.lnk.overrun = s.lnk.overrun
    else t.lnk.placesHeld = s.lnk.placesHeld ∧ t.lnk.overrun = true

theorem State.linkAnswer_ownAnswered : OwnAnswered r k s (s.linkAnswer r k) := by
  refine ⟨s.linkAnswer_held r k, s.linkAnswer_lastAnswer r k, ?_⟩
  simp only [State.linkAnswer, State.transmit_placesHeld, State.transmit_overrun]
  split
  · next hroom =>
    rw [Link.place_room _ hroom]
    exact ⟨Link.append_placesHeld _ _, rfl⟩
  · next hfull =>
    rw [Link.place_full _ hfull]
    exact ⟨rfl, rfl⟩

end

/-! ## The tests of a complete message (R168) -/

section
variable {len b : Byte} {got : List Byte} (s : State)

theorem State.judge_linkError (hsum : len + byteSum got + b ≠ 0) : s.judge len got b = s.linkAnswer .linkError 0 :=
  if_pos hsum

theorem State.judge_overrun (hsum : len + byteSum got + b = 0) (hheld : s.lnk.held.isSome = true) :
    s.judge len got b = s.linkAnswer .overrun (got.headD 0) :=
  (if_neg (not_not.mpr hsum)).trans (if_pos hheld)

section
variable (hsum : len + byteSum got + b = 0) (hheld : s.lnk.held.isSome = false)
include hsum hheld

theorem State.judge_unknownKind (hkind : isCommandKind (got.headD 0) = false) :
    s.judge len got b = s.linkAnswer .unknownKind (got.headD 0) := by
  simp only [State.judge, hsum, hheld, hkind, ne_eq, not_true, Bool.false_eq_true, Bool.not_false, if_false, if_true]

theorem State.judge_badLength (hkind : isCommandKind (got.headD 0) = true) (hlen : lengthAllowed got = false) :
    s.judge len got b = s.linkAnswer .badLength (got.headD 0) := by
  simp only [State.judge, hsum, hheld, hkind, hlen, ne_eq, not_true, Bool.false_eq_true, Bool.not_false, Bool.not_true,
    if_false, if_true]

theorem State.judge_passes (hkind : isCommandKind (got.headD 0) = true) (hlen : lengthAllowed got = true) :
    s.judge len got b = s.dispatch got := by
  simp only [State.judge, hsum, hheld, hkind, hlen, ne_eq, not_true, Bool.false_eq_true, Bool.not_true, if_false]

end

/-- A complete message is answered by the link or handed on: no other block, and neither receiver nor notices, change. -/
theorem State.judge_keeps : (s.judge len got b).apart = s.apart ∧ (s.judge len got b).lnk.rx = s.lnk.rx
    ∧ (s.judge len got b).lnk.noticesHeld = s.lnk.noticesHeld := by
  have hcases : (∃ r k, s.judge len got b = s.linkAnswer r k) ∨ s.judge len got b = s.dispatch got := by
    unfold State.judge
    dsimp only
    split_ifs
    · exact .inl ⟨_, _, rfl⟩
    · exact .inl ⟨_, _, rfl⟩
    · exact .inl ⟨_, _, rfl⟩
    · exact .inl ⟨_, _, rfl⟩
    · exact .inr rfl
  obtain ⟨r, k, h⟩ | h := hcases
  · rw [h]
    exact ⟨s.linkAnswer_apart r k, s.linkAnswer_rx r k, s.linkAnswer_noticesHeld r k⟩
  · rw [h]
    exact ⟨rfl, rfl, Link.hold_noticesHeld got s.lnk⟩

end

/-- No kind of an answer or of a notice is a command kind (Table 10-3). -/
theorem isCommandKind_high {k : Byte} (h : 0x80 ≤ k.toNat) : isCommandKind k = false := by
  have hfixed : ∀ p ∈ fixedLengths, p.1.toNat < 0x80 := by decide
  rw [← Bool.not_eq_true, isCommandKind_iff]
  rintro (rfl | rfl | ⟨n, hn⟩)
  · exact absurd h (by decide)
  · exact absurd h (by decide)
  · exact absurd h (Nat.not_le.mpr (hfixed _ hn))

end Sys2Proof.Machine

open Sys2Proof Sys2Proof.Machine in
/-- Settles O7: the four tests in their order; each that fails makes an answer of the link's own
(`State.linkAnswer_ownAnswered`), and a body that passes them spells a command (`commandOf_isSome`). -/
theorem messagesAreJudgedInOrder : Obligations.MessagesAreJudgedInOrder := by
  refine ⟨fun k hk => isCommandKind_high hk, fun b len got s hhigh hrx => ⟨_, execRxByte_check hhigh hrx b, ?_⟩⟩
  generalize hu : s.setRx .hunting = u
  obtain ⟨hapart, hhunting, hnotices⟩ := u.judge_keeps (len := len) (b := b) (got := got)
  have hown {r : Result} {k : Byte} (h : u.judge len got b = u.linkAnswer r k) : OwnAnswered r k s (u.judge len got b) := by
    rw [h]
    subst hu
    exact State.linkAnswer_ownAnswered r k (s.setRx .hunting)
  have hheldU : u.lnk.held = s.lnk.held := hu ▸ rfl
  refine ⟨hapart.trans (hu ▸ rfl), hhunting.trans (hu ▸ rfl), hnotices.trans (hu ▸ rfl), ?_⟩
  intro kind own
  split_ifs with hsum hheld hkind hlen
  · exact hown (u.judge_linkError hsum)
  · exact hown (u.judge_overrun (not_not.mp hsum) (hheldU ▸ hheld))
  · exact hown (u.judge_unknownKind (not_not.mp hsum) (hheldU ▸ Bool.eq_false_of_not_eq_true hheld) hkind)
  · exact hown (u.judge_badLength (not_not.mp hsum) (hheldU ▸ Bool.eq_false_of_not_eq_true hheld)
      (Bool.eq_true_of_not_eq_false hkind) hlen)
  · have hpasses := u.judge_passes (not_not.mp hsum) (hheldU ▸ Bool.eq_false_of_not_eq_true hheld)
      (Bool.eq_true_of_not_eq_false hkind) (Bool.eq_true_of_not_eq_false hlen)
    rw [hpasses]
    subst hu
    exact ⟨commandOf_isSome (Bool.eq_true_of_not_eq_false hlen), rfl, Link.hold_placesHeld got _, rfl, rfl⟩

namespace Sys2Proof.Machine

/-! ## A frame byte by byte (R166) -/

/-- The receiver stands at `rx`, and the bytes `bs` come in on LINK RX, each without a framing error. -/
def State.receiving (rx : Rx) (bs : List Byte) (s : State) : State :=
  { s with pending := bs.map fun b => .rxByte b false, lnk := { s.lnk with rx := rx } }

section
variable {s : State} {rx : Rx} {b : Byte} {bs : List Byte}

theorem State.receiving_setRx (rx' : Rx) : (s.receiving rx bs).setRx rx' = s.receiving rx' bs := rfl

theorem run_succ (M : Host.Core) (n : Nat) {x y : M.State} (h : M.step x = .next y) : M.run (n + 1) x = M.run n y := by
  rw [Host.Core.run, h]

/-- The first byte is taken. -/
theorem run_receiving {t : State} (h : exec (.rxByte b false) (s.receiving rx bs) = .next t) (n : Nat) :
    Host.Core.run core (n + 1) (s.receiving rx (b :: bs)) = Host.Core.run core n t :=
  run_succ core n h

variable (hhigh : s.board.resetLow = false)
include hhigh

/-- The start byte and the length of a message. -/
theorem run_header {len : Byte} (hlen : 1 ≤ len.toNat ∧ len.toNat ≤ 64) (n : Nat) :
    Host.Core.run core (n + 2) (s.receiving .hunting (0xD5 :: len :: bs))
      = Host.Core.run core n (s.receiving (.body len []) bs) := by
  have hstart := execRxByte_hunting (s := s.receiving .hunting (len :: bs)) hhigh rfl 0xD5
  have hlength := execRxByte_length (s := s.receiving .length bs) hhigh rfl len
  rw [if_pos rfl, State.receiving_setRx] at hstart
  rw [if_pos hlen, State.receiving_setRx] at hlength
  exact (run_receiving hstart (n + 1)).trans (run_receiving hlength n)

/-- The bytes of a body are stored one by one, and the last one ends it. -/
theorem run_body {len : Byte} (n : Nat) (body : List Byte) : ∀ got : List Byte, body ≠ [] →
    got.length + body.length = len.toNat →
    Host.Core.run core (n + body.length) (s.receiving (.body len got) (body ++ bs))
      = Host.Core.run core n (s.receiving (.check len (got ++ body)) bs) := by
  induction body with
  | nil => exact fun _ h => absurd rfl h
  | cons b body ih =>
    intro got _ hlen
    rw [List.length_cons] at hlen
    obtain rfl | hmore := eq_or_ne body []
    · exact run_receiving (execRxByte_lastBody (s := s.receiving _ bs) hhigh rfl hlen b) n
    · have hroom : got.length + 1 < len.toNat := by
        have := List.length_pos_iff.mpr hmore
        omega
      have hstored : (got ++ [b]).length + body.length = len.toNat := by
        rw [List.length_append, List.length_singleton]
        omega
      calc Host.Core.run core (n + body.length + 1) (s.receiving (.body len got) (b :: (body ++ bs)))
        _ = Host.Core.run core (n + body.length) (s.receiving (.body len (got ++ [b])) (body ++ bs)) :=
          run_receiving (execRxByte_body (s := s.receiving _ (body ++ bs)) hhigh rfl hroom b) _
        _ = Host.Core.run core n (s.receiving (.check len (got ++ [b] ++ body)) bs) := ih _ hmore hstored
        _ = Host.Core.run core n (s.receiving (.check len (got ++ b :: body)) bs) := by
          rw [List.append_assoc, List.singleton_append]

end

end Sys2Proof.Machine

open Sys2Proof Sys2Proof.Machine in
/-- Settles O8: header, body and check byte in turn (`run_header`, `run_body`, `execRxByte_check`); the message passes the
tests of the link (`State.judge_passes`). -/
theorem framedCommandBecomesHeld : Obligations.FramedCommandBecomesHeld := by
  intro i body s hhigh hrx hheld hmax hkind hlen _
  have hne : body ≠ [] := by
    rintro rfl
    cases hlen
  have hlength := frame_length hmax
  have hframe : frameBytes body
      = 0xD5 :: BitVec.ofNat 8 body.length :: (body ++ [-(BitVec.ofNat 8 body.length + byteSum body)]) := rfl
  generalize BitVec.ofNat 8 body.length = len at hlength hframe
  have hfits : 1 ≤ len.toNat ∧ len.toNat ≤ 64 := by
    have := List.length_pos_iff.mpr hne
    omega
  have hcheck := execRxByte_check (s := s.receiving (.check len body) []) hhigh rfl (-(len + byteSum body))
  rw [State.receiving_setRx, State.judge_passes (s.receiving .hunting []) (frame_sum _ _) (congrArg Option.isSome hheld) hkind
    hlen] at hcheck
  calc Host.Core.run core (body.length + 3) { s with pending := (frameBytes body).map fun b => .rxByte b false }
    _ = Host.Core.run core (1 + body.length + 2) (s.receiving .hunting (0xD5 :: len :: (body ++ [-(len + byteSum body)]))) := by
      rw [hframe, State.receiving, ← hrx, show body.length + 3 = 1 + body.length + 2 by omega]
    _ = Host.Core.run core (1 + body.length) (s.receiving (.body len []) (body ++ [-(len + byteSum body)])) :=
      run_header hhigh hfits _
    _ = Host.Core.run core 1 (s.receiving (.check len body) [-(len + byteSum body)]) :=
      run_body hhigh 1 body [] hne ((Nat.zero_add _).trans hlength.symm)
    _ = .next ((s.receiving .hunting []).dispatch body) := run_receiving hcheck 0
    _ = _ := by
      rw [State.receiving, ← hrx]
      rfl
end

section
/-! The cue answer (R184, Tables 10-5 to 10-7): the lengths of its parts, the takes it carries, and the room they leave. -/

namespace Sys2Proof.Machine

/-! ## The lengths of the parts -/

theorem Take.bytes_length (t : Take) : t.bytes.length = 6 := rfl

theorem flatMap_takeBytes_length (takes : List Take) : (takes.flatMap Take.bytes).length = 6 * takes.length := by
  induction takes with
  | nil => rfl
  | cons t takes ih =>
    rw [List.flatMap_cons, List.length_append, Take.bytes_length, ih, List.length_cons]
    omega

theorem cueBodyBytes_length (rate : Rate) (loop : Nat) (v : CueVals) : (cueBodyBytes rate loop v).length = 22 := rfl

/-- Two bytes of field mask, and 20 bytes where every field is named (Table 10-6). -/
theorem pendingBytes_length_le (rate : Rate) (p : PendingEdit) : (pendingBytes rate p).length ≤ 22 := by
  have hwidths := maskWidths_le (maskHigh 0 (p.fields.asAmend rate)) (maskLow (p.fields.asAmend rate))
  have hfields := amendBytes_length 0 (p.fields.asAmend rate)
  simp only [pendingBytes, List.length_append, List.length_cons, List.length_nil]
  omega

/-! ## The takes carried -/

theorem takesCarried_le (rate : Rate) (c : Cue) : takesCarried rate c ≤ c.takes.length := by
  unfold takesCarried
  split
  · exact le_rfl
  · exact min_le_left _ _

/-- The newest takes that an answer carries are as many as it says. -/
theorem carriedTakes_length (rate : Rate) (c : Cue) :
    (c.takes.drop (c.takes.length - takesCarried rate c)).length = takesCarried rate c := by
  rw [List.length_drop, Nat.sub_sub_self (takesCarried_le rate c)]

/-- Behind the result, the body, the state byte and the two take bytes stand before the takes carried and the edit. -/
theorem cueAnswerBytes_length (rate : Rate) (c : Cue) : (cueAnswerBytes rate c).length
    = 25 + 6 * takesCarried rate c + (c.pending.elim [] (pendingBytes rate)).length := by
  simp only [cueAnswerBytes, List.length_append, cueBodyBytes_length, List.length_cons, List.length_nil,
    flatMap_takeBytes_length, carriedTakes_length]

/-- Six takes fit without a pending edit; with one, the takes carried are those that its bytes leave room for (R184). -/
theorem carriedTakes_fit (rate : Rate) {c : Cue} (h : c.takes.length ≤ 6) :
    27 + 6 * takesCarried rate c + (c.pending.elim [] (pendingBytes rate)).length ≤ 64 := by
  unfold takesCarried
  cases c.pending with
  | none =>
    simp only [Option.elim_none, List.length_nil]
    omega
  | some p =>
    have hedit := pendingBytes_length_le rate p
    simp only [Option.elim_some]
    omega

theorem cueAnswer_body_length (k : Byte) (rate : Rate) (c : Cue) :
    ({ kind := k, result := .done, data := .cue rate c } : Answer).body.length = (cueAnswerBytes rate c).length + 2 := rfl

/-! ## The voice offset of a take record -/

theorem Take.bytes_offset (t : Take) : t.bytes.drop 3 = intBytes 3 (min (t.offset.getD 0) 8388607) := rfl

end Sys2Proof.Machine

open Sys2Proof.Machine in
/-- Settles O13: the takes split where the newest that are carried begin (`carriedTakes_length`), and these fit
(`carriedTakes_fit`). -/
theorem cueAnswersFit : Obligations.CueAnswersFit := by
  refine ⟨fun k rate c h => ⟨takesCarried rate c, _, _, (List.take_append_drop _ _).symm, carriedTakes_length rate c, rfl,
    rfl, ?_⟩, fun t o ho hlarge => ?_⟩
  · have hfit := carriedTakes_fit rate h
    rw [cueAnswer_body_length, cueAnswerBytes_length]
    omega
  · have hcarried : min (t.offset.getD 0) 8388607 = 8388607 := by
      rw [ho]
      exact min_eq_right hlarge.le
    rw [Take.bytes_offset, hcarried]
    decide
end

section
/-! One step of the part, by its queue of waiting commands (log entry 10). -/

namespace Sys2Proof.Machine

theorem step_of_pending_cons {s : State} {c : Instr} {rest : List Instr} (h : s.pending = c :: rest) :
    step s = exec c { s with pending := rest } := by
  simp only [step, h]

theorem step_of_pending_nil {s : State} (h : s.pending = []) : step s = .next s := by
  simp only [step, h]

end Sys2Proof.Machine

open Sys2Proof.Machine in
/-- Settles O1: the queue holds a command (`step_of_pending_cons`) or none (`step_of_pending_nil`). -/
theorem stepTakesTheFrontCommand : Obligations.StepTakesTheFrontCommand :=
  ⟨fun _ _ _ => step_of_pending_cons rfl, fun _ => step_of_pending_nil rfl⟩
end
